-- ==== Sys2Proof/Word.lean ====
section
/-! DEFINITION. The word types of the block: the 32-bit register value of the host window (10_state.md R21) and its byte lane
(20_memory.md R61). Stored elements, polynomials and matrices are not words: 00_scope.md R10-R12 make them integers, sequences
and bit arrays. -/

namespace Sys2Proof

/-- One byte lane of the host bus (20_memory.md R61). -/
abbrev Byte := BitVec 8

/-- A 32-bit register value, command word or host transfer (10_state.md R21, 30_encoding.md R90). -/
abbrev Word := BitVec 32

end Sys2Proof
end

