-- ==== Sys2Proof/Syntax.lean ====
section
/-! DEFINITION. The commands of 30_encoding.md R96, one constructor per row of spec/opcode_table.json, operands in the order a, b,
c, d, e of the command word. The pseudo-instructions of R101 are words of FADD, PADD, FMUL and PMUL and need no constructor. -/

namespace Sys2Proof

/-- Number of a field-element register `e0` to `e15` (30_encoding.md R92, kind E). -/
abbrev EReg := Fin 16

/-- Number of a polynomial register `p0` to `p15` (30_encoding.md R92, kind P). -/
abbrev PReg := Fin 16

/-- Number of a matrix register `m0` to `m7` (30_encoding.md R92, kind M). -/
abbrev MReg := Fin 8

/-- The commands. Each comment line names the group of 30_encoding.md R96. -/
inductive Instr where
  -- system (40_system.md)
  | nop
  | config
  | supinit
  | emov (a b : EReg)
  | pmov (a b : PReg)
  | mmov (a b : MReg)
  -- field (41_field.md)
  | fadd (a b c : EReg)
  | fmul (a b c : EReg)
  | finv (a b : EReg)
  | fpow (a b c : EReg)
  | fsqrt (a b : EReg)
  -- polynomial (42_polynomial.md)
  | padd (a b c : PReg)
  | pmul (a b c : PReg)
  | pdivmod (a b c d : PReg)
  | pmod (a b c : PReg)
  | pinvmod (a b c : PReg)
  | psplit (a b c : PReg)
  | psqrtmod (a b c : PReg)
  | peval (a : EReg) (b : PReg) (c : EReg)
  | proots (a : MReg) (b : PReg)
  | pirred (a : PReg)
  -- matrix (43_matrix.md)
  | mmul (a b c : MReg)
  | madd (a b c : MReg)
  | mtrans (a b : MReg)
  | mhcat (a b c : MReg)
  | mrowred (a b : MReg)
  | mnull (a b : MReg)
  | minv (a b : MReg)
  | mdet (a : MReg)
  -- Goppa / Patterson (44_goppa.md)
  | pcheck (a : MReg) (b : PReg)
  | synd (a : PReg) (b : MReg) (c : PReg)
  | latred (a b c d : PReg)
  | patterson (a b : MReg) (c d : PReg)
  | decode (a b : MReg) (c : PReg) (d e : MReg)
deriving DecidableEq, Repr

/-- The pseudo-instructions of 30_encoding.md R101. -/
inductive Pseudo where
  | fsub (a b c : EReg)
  | psub (a b c : PReg)
  | fsqr (a b : EReg)
  | psqr (a b : PReg)
  | ezero (a : EReg)
  | pzero (a : PReg)
deriving DecidableEq, Repr

end Sys2Proof
end

