-- ==== Sys2Proof/WellFormed.lean ====
section
/-! DEFINITION. What makes a command word legal beyond its bit pattern: 30_encoding.md R93 step 2, "the command has two
destination fields of the same kind holding the same register number". The register ranges are carried by the types. -/

namespace Sys2Proof

/-- The distinct-destination condition of 30_encoding.md R93; a command that breaks it fails with ILLEGAL_FIELD. -/
def Instr.wellFormed : Instr → Bool
  | .pdivmod a b _ _ => a != b
  | .psplit a b _ => a != b
  | .latred a b _ _ => a != b
  | .decode a _ _ _ e => a != e
  | .nop | .config | .supinit | .emov _ _ | .pmov _ _ | .mmov _ _ => true
  | .fadd _ _ _ | .fmul _ _ _ | .finv _ _ | .fpow _ _ _ | .fsqrt _ _ => true
  | .padd _ _ _ | .pmul _ _ _ | .pmod _ _ _ | .pinvmod _ _ _ | .psqrtmod _ _ _ => true
  | .peval _ _ _ | .proots _ _ | .pirred _ => true
  | .mmul _ _ _ | .madd _ _ _ | .mtrans _ _ | .mhcat _ _ _ => true
  | .mrowred _ _ | .mnull _ _ | .minv _ _ | .mdet _ => true
  | .pcheck _ _ | .synd _ _ _ | .patterson _ _ _ _ => true

end Sys2Proof
end

