-- ==== Sys2Proof/Decode.lean ====
section
/-! DEFINITION. The decoder and, after it, the encoder of the 32-bit command word (30_encoding.md R90-R97). The decoder checks the
bit pattern (mask and match of R97); the distinct-destination condition of R93 is `Instr.wellFormed`, checked when the command
runs (DESIGN CHOICE, assumption 9). -/

namespace Sys2Proof

/-- Why a word is no command (30_encoding.md R93), in the order of its two steps. -/
inductive DecodeError where
  /-- `w[7:0]` is not an opcode of R96 -/
  | illegalOpcode
  /-- a reserved bit, an unused field or bit 3 of a matrix field is not 0 -/
  | illegalField
deriving DecidableEq, Repr

/-- The opcodes of 30_encoding.md R96 as names. -/
inductive Opcode where
  | nop | config | supinit | emov | pmov | mmov
  | fadd | fmul | finv | fpow | fsqrt
  | padd | pmul | pdivmod | pmod | pinvmod | psplit | psqrtmod | peval | proots | pirred
  | mmul | madd | mtrans | mhcat | mrowred | mnull | minv | mdet
  | pcheck | synd | latred | patterson | decode
deriving DecidableEq, Repr

/-- The opcode byte of 30_encoding.md R96. -/
def Opcode.byte : Opcode → Byte
  | .nop => 0x00 | .config => 0x01 | .supinit => 0x02
  | .emov => 0x03 | .pmov => 0x04 | .mmov => 0x05
  | .fadd => 0x10 | .fmul => 0x11 | .finv => 0x12 | .fpow => 0x13 | .fsqrt => 0x14
  | .padd => 0x20 | .pmul => 0x21 | .pdivmod => 0x22 | .pmod => 0x23 | .pinvmod => 0x24
  | .psplit => 0x25 | .psqrtmod => 0x26 | .peval => 0x27 | .proots => 0x28 | .pirred => 0x29
  | .mmul => 0x40 | .madd => 0x41 | .mtrans => 0x42 | .mhcat => 0x43
  | .mrowred => 0x44 | .mnull => 0x45 | .minv => 0x46 | .mdet => 0x47
  | .pcheck => 0x60 | .synd => 0x61 | .latred => 0x62 | .patterson => 0x63 | .decode => 0x64

/-- Every opcode, in the order of 30_encoding.md R96. -/
def Opcode.all : List Opcode :=
  [.nop, .config, .supinit, .emov, .pmov, .mmov] ++
  [.fadd, .fmul, .finv, .fpow, .fsqrt] ++
  [.padd, .pmul, .pdivmod, .pmod, .pinvmod, .psplit, .psqrtmod, .peval, .proots, .pirred] ++
  [.mmul, .madd, .mtrans, .mhcat, .mrowred, .mnull, .minv, .mdet] ++
  [.pcheck, .synd, .latred, .patterson, .decode]

/-- The opcode a byte names; the bytes it answers `none` for are reserved (30_encoding.md R94). -/
def Opcode.ofByte (b : Byte) : Option Opcode := Opcode.all.find? fun o => o.byte == b

/-- The kind of one operand field (30_encoding.md R91). -/
inductive FieldKind where
  /-- the field is not used and must be 0 -/
  | unused
  /-- a field-element register -/
  | e
  /-- a polynomial register -/
  | p
  /-- a matrix register -/
  | m
deriving DecidableEq, Repr

/-- The kinds of the fields a, b, c, d, e of each opcode (30_encoding.md R96). -/
def Opcode.kinds : Opcode → List FieldKind
  | .nop | .config | .supinit => [.unused, .unused, .unused, .unused, .unused]
  | .emov => [.e, .e, .unused, .unused, .unused]
  | .pmov => [.p, .p, .unused, .unused, .unused]
  | .mmov => [.m, .m, .unused, .unused, .unused]
  | .fadd | .fmul | .fpow => [.e, .e, .e, .unused, .unused]
  | .finv | .fsqrt => [.e, .e, .unused, .unused, .unused]
  | .padd | .pmul | .pmod | .pinvmod | .psplit | .psqrtmod => [.p, .p, .p, .unused, .unused]
  | .pdivmod | .latred => [.p, .p, .p, .p, .unused]
  | .peval => [.e, .p, .e, .unused, .unused]
  | .proots | .pcheck => [.m, .p, .unused, .unused, .unused]
  | .pirred => [.p, .unused, .unused, .unused, .unused]
  | .mmul | .madd | .mhcat => [.m, .m, .m, .unused, .unused]
  | .mtrans | .mrowred | .mnull | .minv => [.m, .m, .unused, .unused, .unused]
  | .mdet => [.m, .unused, .unused, .unused, .unused]
  | .synd => [.p, .m, .p, .unused, .unused]
  | .patterson => [.m, .m, .p, .p, .unused]
  | .decode => [.m, .m, .p, .m, .m]

/-- Field `k` (0 for a, ... 4 for e, 5 for rsv) of a command word, bits `11+4k : 8+4k` (30_encoding.md R91). -/
def wordField (w : Word) (k : Nat) : BitVec 4 := w.extractLsb' (8 + 4 * k) 4

/-- The opcode byte `w[7:0]` (30_encoding.md R91). -/
def wordOp (w : Word) : Byte := w.extractLsb' 0 8

/-- 30_encoding.md R92, R93: a value a field of this kind may hold. -/
def FieldKind.legal : FieldKind → BitVec 4 → Bool
  | .unused, v => v == 0
  | .m, v => v.toNat < 8
  | .e, _ => true
  | .p, _ => true

/-- The reserved bits are 0 and every field holds a value its kind allows (30_encoding.md R93 step 2). -/
def Opcode.legalFields (o : Opcode) (w : Word) : Bool :=
  wordField w 5 == 0 && o.kinds.zipIdx.all fun (kind, k) => kind.legal (wordField w k)

/-- The number in field `k` as a register number of kind E or P. -/
def wordReg16 (w : Word) (k : Nat) : Fin 16 := Fin.ofNat 16 (wordField w k).toNat

/-- The number in field `k` as a register number of kind M; used only where bit 3 is 0. -/
def wordReg8 (w : Word) (k : Nat) : Fin 8 := Fin.ofNat 8 (wordField w k).toNat

/-- The command an opcode and a word's fields name (30_encoding.md R96). -/
def Opcode.instr (o : Opcode) (w : Word) : Instr :=
  let r := wordReg16 w
  let m := wordReg8 w
  match o with
  | .nop => .nop
  | .config => .config
  | .supinit => .supinit
  | .emov => .emov (r 0) (r 1)
  | .pmov => .pmov (r 0) (r 1)
  | .mmov => .mmov (m 0) (m 1)
  | .fadd => .fadd (r 0) (r 1) (r 2)
  | .fmul => .fmul (r 0) (r 1) (r 2)
  | .finv => .finv (r 0) (r 1)
  | .fpow => .fpow (r 0) (r 1) (r 2)
  | .fsqrt => .fsqrt (r 0) (r 1)
  | .padd => .padd (r 0) (r 1) (r 2)
  | .pmul => .pmul (r 0) (r 1) (r 2)
  | .pdivmod => .pdivmod (r 0) (r 1) (r 2) (r 3)
  | .pmod => .pmod (r 0) (r 1) (r 2)
  | .pinvmod => .pinvmod (r 0) (r 1) (r 2)
  | .psplit => .psplit (r 0) (r 1) (r 2)
  | .psqrtmod => .psqrtmod (r 0) (r 1) (r 2)
  | .peval => .peval (r 0) (r 1) (r 2)
  | .proots => .proots (m 0) (r 1)
  | .pirred => .pirred (r 0)
  | .mmul => .mmul (m 0) (m 1) (m 2)
  | .madd => .madd (m 0) (m 1) (m 2)
  | .mtrans => .mtrans (m 0) (m 1)
  | .mhcat => .mhcat (m 0) (m 1) (m 2)
  | .mrowred => .mrowred (m 0) (m 1)
  | .mnull => .mnull (m 0) (m 1)
  | .minv => .minv (m 0) (m 1)
  | .mdet => .mdet (m 0)
  | .pcheck => .pcheck (m 0) (r 1)
  | .synd => .synd (r 0) (m 1) (r 2)
  | .latred => .latred (r 0) (r 1) (r 2) (r 3)
  | .patterson => .patterson (m 0) (m 1) (r 2) (r 3)
  | .decode => .decode (m 0) (m 1) (r 2) (m 3) (m 4)

/-- The command a word encodes, or why it encodes none (30_encoding.md R93). -/
def decodeWord (w : Word) : Except DecodeError Instr :=
  match Opcode.ofByte (wordOp w) with
  | none => .error .illegalOpcode
  | some o => if o.legalFields w then .ok (o.instr w) else .error .illegalField

/-- A field of a 32-bit word: the value `v` with its bit 0 at bit `lo` (00_scope.md R9). -/
def atBit {n : Nat} (v : BitVec n) (lo : Nat) : Word := v.setWidth 32 <<< lo

/-- The 32-bit value on four byte lanes, lane 0 at the lowest address: little-endian (20_memory.md R61). -/
def wordOfLanes (b0 b1 b2 b3 : Byte) : Word := atBit b0 0 ||| atBit b1 8 ||| atBit b2 16 ||| atBit b3 24

/-- Byte lane `i` of a 32-bit value, `v[8i+7 : 8i]` (20_memory.md R61). -/
def laneOfWord (v : Word) (i : Nat) : Byte := v.extractLsb' (8 * i) 8

/-- Why a string of bytes gives no command. -/
inductive BytesError where
  /-- fewer than the four lanes of one 32-bit transfer (20_memory.md R62: no narrower access is defined) -/
  | shortWord
  /-- the word is no command -/
  | word (e : DecodeError)
deriving DecidableEq, Repr

/-- The command in the first four bytes as the bus carries them, with the bytes that follow. -/
def decodeBytes : List Byte → Except BytesError (Instr × List Byte)
  | b0 :: b1 :: b2 :: b3 :: rest =>
    match decodeWord (wordOfLanes b0 b1 b2 b3) with
    | .ok i => .ok (i, rest)
    | .error e => .error (.word e)
  | _ => .error .shortWord

/-- The command word whose first `nbits` bits are `w`, every bit above them 0. -/
def tableWord (nbits w : Nat) : Word := BitVec.ofNat 32 (w % 2 ^ nbits)

/-- The command the decoder reads from the bytes of `tableWord nbits w`, laid out as the bus carries them. -/
def decodeTableWord (nbits w : Nat) : Option Instr :=
  let v := tableWord nbits w
  match decodeBytes ((List.range 4).map (laneOfWord v)) with
  | .ok (i, _) => some i
  | .error _ => none

/-- The opcode of a command (30_encoding.md R96). -/
def Instr.opcode : Instr → Opcode
  | .nop => .nop
  | .config => .config
  | .supinit => .supinit
  | .emov _ _ => .emov
  | .pmov _ _ => .pmov
  | .mmov _ _ => .mmov
  | .fadd _ _ _ => .fadd
  | .fmul _ _ _ => .fmul
  | .finv _ _ => .finv
  | .fpow _ _ _ => .fpow
  | .fsqrt _ _ => .fsqrt
  | .padd _ _ _ => .padd
  | .pmul _ _ _ => .pmul
  | .pdivmod _ _ _ _ => .pdivmod
  | .pmod _ _ _ => .pmod
  | .pinvmod _ _ _ => .pinvmod
  | .psplit _ _ _ => .psplit
  | .psqrtmod _ _ _ => .psqrtmod
  | .peval _ _ _ => .peval
  | .proots _ _ => .proots
  | .pirred _ => .pirred
  | .mmul _ _ _ => .mmul
  | .madd _ _ _ => .madd
  | .mtrans _ _ => .mtrans
  | .mhcat _ _ _ => .mhcat
  | .mrowred _ _ => .mrowred
  | .mnull _ _ => .mnull
  | .minv _ _ => .minv
  | .mdet _ => .mdet
  | .pcheck _ _ => .pcheck
  | .synd _ _ _ => .synd
  | .latred _ _ _ _ => .latred
  | .patterson _ _ _ _ => .patterson
  | .decode _ _ _ _ _ => .decode

/-- The register numbers of a command in the order a, b, c, d, e, an unused field 0 (30_encoding.md R91). -/
def Instr.fields : Instr → Nat × Nat × Nat × Nat × Nat
  | .nop | .config | .supinit => (0, 0, 0, 0, 0)
  | .emov a b | .pmov a b | .finv a b | .fsqrt a b => (a, b, 0, 0, 0)
  | .mmov a b | .mtrans a b | .mrowred a b | .mnull a b | .minv a b => (a, b, 0, 0, 0)
  | .fadd a b c | .fmul a b c | .fpow a b c => (a, b, c, 0, 0)
  | .padd a b c | .pmul a b c | .pmod a b c | .pinvmod a b c | .psplit a b c | .psqrtmod a b c =>
    (a, b, c, 0, 0)
  | .pdivmod a b c d | .latred a b c d => (a, b, c, d, 0)
  | .peval a b c => (a, b, c, 0, 0)
  | .proots a b | .pcheck a b => (a, b, 0, 0, 0)
  | .pirred a => (a, 0, 0, 0, 0)
  | .mmul a b c | .madd a b c | .mhcat a b c => (a, b, c, 0, 0)
  | .mdet a => (a, 0, 0, 0, 0)
  | .synd a b c => (a, b, c, 0, 0)
  | .patterson a b c d => (a, b, c, d, 0)
  | .decode a b c d e => (a, b, c, d, e)

/-- A register number as a 4-bit field. -/
def regField (n : Nat) : BitVec 4 := BitVec.ofNat 4 n

/-- The word `0000 eeee dddd cccc bbbb aaaa oooooooo` (30_encoding.md R97). -/
def packWord (op : Byte) (a b c d e : BitVec 4) : Word :=
  atBit op 0 ||| atBit a 8 ||| atBit b 12 ||| atBit c 16 ||| atBit d 20 ||| atBit e 24

/-- The word of a command (30_encoding.md R97). -/
def encode (i : Instr) : Word :=
  match i.fields with
  | (a, b, c, d, e) =>
    packWord i.opcode.byte (regField a) (regField b) (regField c) (regField d) (regField e)

/-- The four byte lanes of a command's word, lane 0 first (20_memory.md R61). -/
def encodeBytes (i : Instr) : List Byte := (List.range 4).map (laneOfWord (encode i))

end Sys2Proof
end

