-- ==== Sys2Proof/Config.lean ====
section
/-! DEFINITION. What an implementation of the block fixes: the build parameters of 00_scope.md R6, the identity constant of
10_state.md R22 and the platform's base address (20_memory.md R60). -/

namespace Sys2Proof

/-- The build-time parameters of 00_scope.md R6, the contents of the read-only registers CAP0 to CAP3. -/
structure Build where
  /-- largest field degree, and the width in bits of a stored element -/
  mmax : Nat
  /-- coefficients per polynomial register -/
  pcap : Nat
  /-- entries of the support memory -/
  nmax : Nat
  /-- largest row count of a matrix register -/
  rmax : Nat
  /-- largest column count of a matrix register -/
  cmax : Nat
deriving DecidableEq, Repr

/-- `WPR = CMAX / 32`, the 32-bit data words per stored matrix row (00_scope.md R6). -/
def Build.wpr (b : Build) : Nat := b.cmax / 32

/-- The constraints 00_scope.md R6 puts on the parameters. -/
abbrev Build.Ok (b : Build) : Prop :=
  (1 ≤ b.mmax ∧ b.mmax ≤ 31) ∧ (2 ≤ b.pcap ∧ b.pcap ≤ 65535) ∧
  (1 ≤ b.nmax ∧ b.nmax ≤ 2 ^ b.mmax ∧ b.nmax ≤ b.cmax) ∧
  (1 ≤ b.rmax ∧ b.rmax * b.wpr ≤ 2 ^ 32) ∧
  (32 ≤ b.cmax ∧ b.cmax < 2 ^ 32 ∧ b.cmax % 32 = 0)

/-- The reference build of 00_scope.md R6 (DESIGN CHOICE, assumption 1: only `State.reset` names it). -/
def Config.reference : Build :=
  { mmax := 16, pcap := 256, nmax := 8192, rmax := 8192, cmax := 8192 }

/-- The `ID` register: "GF", interface version 1 (10_state.md R22). -/
def Config.idWord : Word := 0x47460001

/-- `BASE`, the address of the window, chosen by the platform (20_memory.md R60, R73): a free value, it has no body (DESIGN CHOICE,
assumption 15). -/
opaque Config.base : Nat

end Sys2Proof
end

