-- ==== Sys2Proof/Machine/State.lean ====
section
/-! DEFINITION. The state of the block (10_state.md R20: "The architectural state of the block is exactly"), as plain data, and its
value after reset (R48). The fields `inbox` and `rdata` are the model's own (DESIGN CHOICE, assumptions 2 and 4). -/

namespace Sys2Proof.Machine

/-- The error codes of 60_exceptions.md R240, in the order of their values 0x00 to 0x10. -/
inductive ErrCode where
  | none | illegalOpcode | illegalField | notConfigured | badConfig | operandRange
  | divZero | notInvertible | singular | zeroSyndrome | decodeFailure | dimMismatch
  | capacity | badLength | badN | goppaDegree | badSupport
deriving DecidableEq, Repr

/-- A zero-default indexed memory of field elements: the support memory (10_state.md R43) or the coefficients of a polynomial
register (R41). Entry `i` is the `i`-th element of the list, 0 where the list has ended. Canonical form: no trailing zero
(DESIGN CHOICE, assumption 5). -/
abbrev Memory := List Nat

/-- A polynomial, coefficient of `x^i` at place `i`, 0 past the end (00_scope.md R11). -/
abbrev Poly := List Nat

/-- A binary matrix (10_state.md R42): its column count and its rows, each packed with column `j` in bit `j` (43_matrix.md R191).
`M[i].rows` is the length of the list. -/
structure Mat where
  cols : Nat
  row : List Nat
deriving DecidableEq, Repr

/-- `CTRL` (10_state.md R25); bit 0 holds no state. -/
structure Ctrl where
  irqEn : Bool
  zsPass : Bool
deriving DecidableEq, Repr

/-- `STATUS` (10_state.md R26) without BUSY, which is `pend ≠ none` (R44). -/
structure Status where
  done : Bool
  err : Bool
  errm : Bool
  ovr : Bool
  aerr : Bool
  cfgValid : Bool
  errcode : ErrCode
deriving DecidableEq, Repr

/-- `DSEL` (10_state.md R37). -/
structure Dsel where
  space : BitVec 3
  reg : BitVec 4
  autoinc : Bool
deriving DecidableEq, Repr

/-- The hidden command state `PEND` (10_state.md R44). -/
inductive Pend where
  /-- idle -/
  | none
  /-- the reset initialisation is in progress (70_reset_and_hazards.md R272) -/
  | init
  /-- the word `w` is issued, with the zero-syndrome policy sampled at issue -/
  | run (w : Word) (zs : Bool)
deriving DecidableEq, Repr

/-- Width of a host access; only 32 bits is defined (20_memory.md R62; DESIGN CHOICE, assumption 15). -/
inductive AccessWidth where
  | byte | half | word
deriving DecidableEq, Repr

/-- A read, or a write of a value. -/
inductive AccessKind where
  | read
  | write (v : Word)
deriving DecidableEq, Repr

/-- One host access at a byte offset of the 256-byte window (20_memory.md R60). -/
structure Access where
  off : BitVec 8
  width : AccessWidth
  kind : AccessKind
deriving DecidableEq, Repr

/-- What may happen next (40_system.md R110; DESIGN CHOICE, assumption 2): an access of the host, an assertion of the reset input
(70_reset_and_hazards.md R270), or the command engine's move, whose delay has ended (R282). -/
inductive HostEvent where
  | access (a : Access)
  | resetInput
  | engineTurn
deriving DecidableEq, Repr

/-- The state of the block. -/
structure State where
  /-- contents of the read-only registers CAP0 to CAP3 (10_state.md R23, R24): the build (DESIGN CHOICE, assumption 1) -/
  caps : Build
  /-- `CTRL` (R25) -/
  ctrl : Ctrl
  /-- `STATUS` (R26) -/
  status : Status
  /-- `ERRCMD` (R32) -/
  errcmd : Word
  /-- `CFG_M[4:0]` (R27) -/
  cfgM : BitVec 5
  /-- `CFG_FMOD` (R28) -/
  cfgFmod : Word
  /-- `CFG_N` (R29) -/
  cfgN : Word
  /-- `ARG0` (R33) -/
  arg0 : Word
  /-- `RES_COUNT` (R34) -/
  resCount : Word
  /-- `RES_RANK` (R35) -/
  resRank : Word
  /-- `RES_FLAG` bit 0 (R36) -/
  resFlag : Bool
  /-- `DSEL` (R37) -/
  dsel : Dsel
  /-- `DIDX` (R38) -/
  didx : Word
  /-- the field-element file `E` (R40) -/
  e : Vector Nat 16
  /-- the polynomial file `P` (R41) -/
  p : Vector Poly 16
  /-- the matrix file `M` (R42) -/
  m : Vector Mat 8
  /-- the support memory `SUP` (R43) -/
  sup : Memory
  /-- `PEND` (R44) -/
  pend : Pend
  /-- the model's own: the events still to come, first at the head (DESIGN CHOICE, assumption 2) -/
  inbox : List HostEvent
  /-- the model's own: the value the last host read returned (DESIGN CHOICE, assumption 4) -/
  rdata : Word
deriving DecidableEq, Repr

/-- No step of the block stops with a fault: "No behaviour of this block is `stuck`: every command completes"
(93_implementation_defined.md; 70_reset_and_hazards.md R282). Every failure is a next state (60_exceptions.md R241), so the type
is empty; nobody raises one, and that is neither safe nor unsafe. -/
inductive Fault where
deriving DecidableEq, Repr

/-- Why an instruction has no meaning. -/
inductive Refusal where
  /-- raised only by an arm of `exec` whose command is not modelled yet; safe (the machine stops where the hardware goes on).
  No arm raises it now. -/
  | notModelled (mnemonic : String)
deriving DecidableEq, Repr

/-- The block of build `b` right after reset (10_state.md R48, 70_reset_and_hazards.md R271). -/
def State.resetOf (b : Build) : State where
  caps := b
  ctrl := { irqEn := false, zsPass := false }
  status :=
    { done := false, err := false, errm := false, ovr := false, aerr := false, cfgValid := false, errcode := .none }
  errcmd := 0
  cfgM := 0
  cfgFmod := 0
  cfgN := 0
  arg0 := 0
  resCount := 0
  resRank := 0
  resFlag := false
  dsel := { space := 0, reg := 0, autoinc := false }
  didx := 0
  e := Vector.replicate 16 0
  p := Vector.replicate 16 []
  m := Vector.replicate 8 { cols := 0, row := [] }
  sup := []
  pend := .init
  inbox := []
  rdata := 0

/-- The reference build right after reset (00_scope.md R6; DESIGN CHOICE, assumption 1). -/
def State.reset : State := State.resetOf Config.reference

end Sys2Proof.Machine
end

