-- ==== Sys2Proof/Machine/MatArith.lean ====
section
/-! DEFINITION. Binary matrices (43_matrix.md R181-R190, the functions). A row is packed with column `j` in bit `j` (R191). -/

namespace Sys2Proof.Machine

/-- The row count `M.rows`. -/
def Mat.rows (A : Mat) : Nat := A.row.length

/-- Row `i`, packed; 0 past the last. -/
def Mat.rowAt (A : Mat) (i : Nat) : Nat := A.row.getD i 0

/-- The bit `A[i][j]` (00_scope.md R12). -/
def Mat.bit (A : Mat) (i j : Nat) : Bool := (A.rowAt i).testBit j

/-- The number whose bit `j` is the `j`-th entry. -/
def packBits : List Bool → Nat
  | [] => 0
  | b :: bs => (if b then 1 else 0) + 2 * packBits bs

/-- The `1 × n` matrix of a list of bits (00_scope.md R12: "A vector of length `n` is a `1 × n` matrix"). -/
def rowVector (bits : List Bool) : Mat := { cols := bits.length, row := [packBits bits] }

/-- The XOR of the rows selected by the bits of `a`, bit `k` selecting row `k`. -/
def selectRows (a : Nat) : List Nat → Nat
  | [] => 0
  | b :: bs => (if a.testBit 0 then b else 0) ^^^ selectRows (a >>> 1) bs

/-- The product `A · B` (43_matrix.md R182): row `i` is the XOR of the rows `k` of `B` with `A[i][k] = 1`. -/
def matMul (A B : Mat) : Mat := { cols := B.cols, row := A.row.map fun a => selectRows a B.row }

/-- The element-wise sum (43_matrix.md R183). -/
def matAdd (A B : Mat) : Mat := { cols := A.cols, row := A.row.zipWith (· ^^^ ·) B.row }

/-- The transpose (43_matrix.md R184). -/
def matTrans (A : Mat) : Mat :=
  { cols := A.rows, row := (List.range A.cols).map fun j => packBits (A.row.map (·.testBit j)) }

/-- `[A | B]`: the columns of `B` after those of `A` (43_matrix.md R185). -/
def matHcat (A B : Mat) : Mat :=
  { cols := A.cols + B.cols, row := A.row.zipWith (fun a b => a ||| (b <<< A.cols)) B.row }

/-- The `r × r` identity. -/
def matId (r : Nat) : Mat := { cols := r, row := (List.range r).map fun i => 1 <<< i }

/-- The smallest row index `i` with `p <= i < r` and `R[i][col] = 1` (43_matrix.md R181). -/
def pivotRow (R : List Nat) (p col : Nat) : Option Nat :=
  (List.range R.length).find? fun i => p ≤ i && (R.getD i 0).testBit col

/-- Swap rows `p` and `i`. -/
def swapRows (R : List Nat) (p i : Nat) : List Nat := (R.set p (R.getD i 0)).set i (R.getD p 0)

/-- Add row `p` to every other row with a 1 in column `col`. -/
def eliminate (R : List Nat) (p col : Nat) : List Nat :=
  R.mapIdx fun i x => if i ≠ p ∧ x.testBit col then x ^^^ R.getD p 0 else x

/-- Result of `rref` (43_matrix.md R181): the reduced rows, the rank, the pivot columns in order. -/
structure Rref where
  row : List Nat
  rank : Nat
  piv : List Nat
deriving DecidableEq, Repr

/-- The loop of `rref` over the columns still to visit (43_matrix.md R181). -/
def rrefLoop : List Nat → List Nat → Nat → List Nat → Rref
  | [], R, p, piv => { row := R, rank := p, piv := piv }
  | col :: cs, R, p, piv =>
    if p = R.length then { row := R, rank := p, piv := piv }
    else
      match pivotRow R p col with
      | none => rrefLoop cs R p piv
      | some i0 => rrefLoop cs (eliminate (swapRows R p i0) p col) (p + 1) (piv ++ [col])

/-- `rref(A, cols)` (43_matrix.md R181). -/
def rref (A : Mat) (cols : Nat) : Rref := rrefLoop (List.range cols) A.row 0 []

/-- The columns of an `A` with `c` columns that are not pivots, in increasing order (43_matrix.md R186). -/
def freeCols (c : Nat) (piv : List Nat) : List Nat := (List.range c).filter fun j => !piv.contains j

/-- Row of `nullbasis` for the free column `fk` (43_matrix.md R186): 1 at `fk`, `R[j][fk]` at the pivot column `piv[j]`. -/
def nullRow (R : Rref) (fk : Nat) : Nat :=
  (R.piv.zip R.row).foldl (fun acc (pc, r) => if r.testBit fk then acc ||| (1 <<< pc) else acc) (1 <<< fk)

/-- `nullbasis(A)` from `rref(A, c)` (43_matrix.md R186). -/
def nullBasis (c : Nat) (R : Rref) : Mat := { cols := c, row := (freeCols c R.piv).map (nullRow R) }

/-- Columns `r .. 2r−1` of an `r × 2r` list of rows (43_matrix.md R189). -/
def rightHalf (r : Nat) (rows : List Nat) : Mat := { cols := r, row := rows.map fun x => (x >>> r) % 2 ^ r }

/-- The number of 1 entries. -/
def countTrue (bits : List Bool) : Nat := bits.countP (· == true)

end Sys2Proof.Machine
end

