-- ==== Sys2Proof/Machine/Gf.lean ====
section
/-! DEFINITION. Arithmetic of GF(2^m) on integers `< 2^m` (41_field.md R130-R135) and the irreducibility test of CONFIG
(40_system.md R114). Bit `i` of an element is the coefficient of `z^i` (00_scope.md R10). -/

namespace Sys2Proof.Machine

/-- The active field: degree `m` and modulus `f` (10_state.md R30). -/
structure Gf where
  m : Nat
  f : Nat
deriving DecidableEq, Repr

/-- `InF(v)`: `v` is a field element (41_field.md R130). -/
def inF (F : Gf) (v : Nat) : Bool := v < 2 ^ F.m

/-- Addition and subtraction (41_field.md R131). -/
def gadd (a b : Nat) : Nat := a ^^^ b

/-- Binary polynomial product: the XOR over `i < m` with `b[i] = 1` of `a << i` (41_field.md R132). -/
def clmul (m a b : Nat) : Nat :=
  (List.range m).foldl (fun acc i => if b.testBit i then acc ^^^ (a <<< i) else acc) 0

/-- The loop of `polymod2` (41_field.md R132) for a modulus `f` of degree `m`, at most `n` rounds; `Nat.log2` of a nonzero number
is the index of its highest set bit, the rule's `deg2`. -/
def polymod2Loop (m f : Nat) : Nat → Nat → Nat
  | 0, x => x
  | n + 1, x => if x ≠ 0 ∧ m ≤ x.log2 then polymod2Loop m f n (x ^^^ (f <<< (x.log2 - m))) else x

/-- `polymod2(x, f)` (41_field.md R132). Each round lowers `deg2(x)`, so `log2 x + 1` rounds are enough (DEDUCED, assumption 8). -/
def polymod2 (m f x : Nat) : Nat := polymod2Loop m f (x.log2 + 1) x

/-- Multiplication (41_field.md R132). -/
def gmul (F : Gf) (a b : Nat) : Nat := polymod2 F.m F.f (clmul F.m a b)

/-- Square and multiply over the `n` low bits of `e`: `acc · a^e` (DEDUCED, assumption 7). -/
def gpowLoop (F : Gf) : Nat → Nat → Nat → Nat → Nat
  | 0, acc, _, _ => acc
  | n + 1, acc, a, e => gpowLoop F n (if e.testBit 0 then gmul F acc a else acc) (gmul F a a) (e / 2)

/-- `gpow(a, e)` (41_field.md R134): `gpow(a, 0) = 1` and `gpow(a, e+1) = gmul(gpow(a, e), a)`, computed by square and multiply
(DEDUCED, assumption 7). -/
def gpow (F : Gf) (a e : Nat) : Nat := gpowLoop F (e.log2 + 1) 1 a e

/-- `ginv(a)` for `a ≠ 0` (41_field.md R133: "It equals `gpow(a, 2^m − 2)`"). -/
def ginv (F : Gf) (a : Nat) : Nat := gpow F a (2 ^ F.m - 2)

/-- `gsqrt(a) = gpow(a, 2^(m−1))` (41_field.md R135). -/
def gsqrt (F : Gf) (a : Nat) : Nat := gpow F a (2 ^ (F.m - 1))

/-- `ff` has degree exactly `mm` (40_system.md R114, 10_state.md R30). -/
def hasDegree2 (ff mm : Nat) : Bool := ff.testBit mm && ff < 2 ^ (mm + 1)

/-- `IrreducibleGF2(ff)` (40_system.md R114) for `ff` of degree `mm`: no binary polynomial of degree 1 to `mm/2` divides it, by trial
division (DEDUCED, assumption 7). -/
def irreducibleGF2 (mm ff : Nat) : Bool :=
  1 ≤ mm && (List.range (2 ^ (mm / 2 + 1))).all fun u => u < 2 || polymod2 u.log2 u ff ≠ 0

/-- The checks of CONFIG on a degree and a modulus (40_system.md R114), which an active field satisfies (10_state.md R30). -/
def fieldOk (mmax mm ff : Nat) : Bool :=
  (1 ≤ mm && mm ≤ mmax) && hasDegree2 ff mm && irreducibleGF2 mm ff

end Sys2Proof.Machine
end

