-- ==== Sys2Proof/Machine/PolyArith.lean ====
section
/-! DEFINITION. Polynomials over the active field (42_polynomial.md R151-R157, the functions of R164 and R167). A polynomial is its
list of coefficients, lowest first (00_scope.md R11); every function answers the canonical list, with no trailing zero. -/

namespace Sys2Proof.Machine

/-- Put a coefficient below a canonical list, keeping the form: a zero under nothing is nothing. -/
def consTrim (x : Nat) (xs : List Nat) : List Nat := if x = 0 ∧ xs = [] then [] else x :: xs

/-- The canonical list of a polynomial: trailing zeros dropped. -/
def norm : List Nat → Poly
  | [] => []
  | x :: xs => consTrim x (norm xs)

/-- The coefficient of `x^i` (00_scope.md R11: "coefficients not stored are 0"). -/
def coeff (A : Poly) (i : Nat) : Nat := A.getD i 0

/-- `deg(A)`, with `deg(0)` in its host-visible form −1 (00_scope.md R11; DEDUCED, assumption 10). -/
def deg (A : Poly) : Int := ((norm A).length : Int) - 1

/-- `lc(A)`, the coefficient of `x^deg(A)`, for `A ≠ 0` (00_scope.md R11). -/
def lc (A : Poly) : Nat := coeff A (deg A).toNat

/-- `A = 0`. -/
def isZero (A : Poly) : Bool := norm A == []

/-- `padd(A, B)`, also subtraction (42_polynomial.md R151). -/
def padd : Poly → Poly → Poly
  | [], B => norm B
  | a :: A, [] => norm (a :: A)
  | a :: A, b :: B => consTrim (gadd a b) (padd A B)

/-- `c · A` for a field element `c`. -/
def pscale (F : Gf) (c : Nat) (A : Poly) : Poly := norm (A.map (gmul F c))

/-- `x^s · A`. -/
def pshift (s : Nat) (A : Poly) : Poly := norm (List.replicate s 0 ++ A)

/-- `pmul(A, B)` (42_polynomial.md R152), by rows of the product table: `(a + x·A')·B = a·B + x·(A'·B)`. -/
def pmul (F : Gf) : Poly → Poly → Poly
  | [], _ => []
  | a :: A, B => padd (pscale F a B) (pshift 1 (pmul F A B))

/-- The loop of `pdivmod` (42_polynomial.md R153), at most `n` rounds; `db` is `deg(B)`, `li` is `ginv(lc(B))`. -/
def pdivLoop (F : Gf) (B : Poly) (db : Int) (li : Nat) : Nat → Poly → Poly → Poly × Poly
  | 0, Q, R => (Q, R)
  | n + 1, Q, R =>
    if isZero R = false ∧ db ≤ deg R then
      let s := (deg R - db).toNat
      let c := gmul F (lc R) li
      pdivLoop F B db li n (padd Q (pshift s [c])) (padd R (pshift s (pscale F c B)))
    else (Q, R)

/-- `pdivmod(A, B)` for `B ≠ 0` (42_polynomial.md R153). Each round lowers `deg(R)`, so `A.length` rounds are enough (DEDUCED, assumption 8). -/
def pdivmod (F : Gf) (A B : Poly) : Poly × Poly :=
  pdivLoop F B (deg B) (ginv F (lc B)) A.length [] (norm A)

/-- `pmod(A, B)` for `B ≠ 0` (42_polynomial.md R154). -/
def pmod (F : Gf) (A B : Poly) : Poly := (pdivmod F A B).2

/-- `peval(A, v)` by Horner's rule from the highest coefficient down (42_polynomial.md R155). -/
def peval (F : Gf) (A : Poly) (v : Nat) : Nat := A.foldr (fun a acc => gadd (gmul F acc v) a) 0

/-- The extended Euclidean algorithm, at most `n` rounds: the last nonzero remainder and its cofactor of the second argument
(DEDUCED, assumption 7). -/
def egcd (F : Gf) : Nat → Poly → Poly → Poly → Poly → Poly × Poly
  | 0, r0, u0, _, _ => (r0, u0)
  | n + 1, r0, u0, r1, u1 =>
    if isZero r1 then (r0, u0)
    else
      let qr := pdivmod F r0 r1
      egcd F n r1 u1 qr.2 (padd u0 (pmul F qr.1 u1))

/-- `gcd(A, B)` up to a constant, with `gcd(0, B) = B` (42_polynomial.md R156). -/
def pgcd (F : Gf) (A B : Poly) : Poly := (egcd F (A.length + 1) B [] (norm A) [1]).1

/-- `pinvmod(A, G)` (42_polynomial.md R156): the unique inverse of `A` modulo `G` of degree below `deg(G)`. -/
def pinvmod (F : Gf) (A G : Poly) : Except ErrCode Poly :=
  if isZero G then .error .divZero
  else if deg G = 0 then .ok []
  else
    let A1 := pmod F A G
    let gu := egcd F (A1.length + 1) (norm G) [] A1 [1]
    if deg gu.1 = 0 then .ok (pmod F (pscale F (ginv F (lc gu.1)) gu.2) G)
    else .error .notInvertible

/-- The coefficients at even places. -/
def evens : List Nat → List Nat
  | [] => []
  | [a] => [a]
  | a :: _ :: rest => a :: evens rest

/-- The coefficients at odd places. -/
def odds : List Nat → List Nat
  | [] => []
  | [_] => []
  | _ :: b :: rest => b :: odds rest

/-- `psplit(A)` (42_polynomial.md R157): the coefficient-wise square roots of the even and of the odd part. -/
def psplit (F : Gf) (A : Poly) : Poly × Poly :=
  (norm ((evens A).map (gsqrt F)), norm ((odds A).map (gsqrt F)))

/-- The polynomial `x`. -/
def polyX : Poly := [0, 1]

/-- Square modulo `G`, `n` times. -/
def psquareTimes (F : Gf) (G : Poly) : Nat → Poly → Poly
  | 0, h => h
  | n + 1, h => psquareTimes F G n (pmod F (pmul F h h) G)

/-- `psqrtmod(A, G)` (42_polynomial.md R164). -/
def psqrtmod (F : Gf) (A G : Poly) : Except ErrCode Poly :=
  if isZero G then .error .divZero
  else if deg G = 0 then .ok []
  else
    let eo := psplit F (pmod F A G)
    let sx := psquareTimes F G (F.m * (deg G).toNat - 1) (pmod F polyX G)
    .ok (pmod F (padd eo.1 (pmul F sx eo.2)) G)

/-- For `i = 1 .. n` in turn: `x^(2^(m·i)) − x` has only a constant common with `A`; `h` is `x^(2^(m·(i−1))) mod A`
(DEDUCED, assumption 7). -/
def noFactorLoop (F : Gf) (A : Poly) : Nat → Poly → Bool
  | 0, _ => true
  | n + 1, h =>
    let h' := psquareTimes F A F.m h
    deg (pgcd F (padd h' polyX) A) == 0 && noFactorLoop F A n h'

/-- The irreducibility test of PIRRED (42_polynomial.md R167: "the result does not depend on the algorithm"): `A` has no factor of
degree 1 to `deg(A)/2` (DEDUCED, assumption 7). -/
def pirred (F : Gf) (A : Poly) : Bool :=
  1 ≤ deg A && noFactorLoop F A ((deg A).toNat / 2) (pmod F polyX A)

end Sys2Proof.Machine
end

