-- ==== Sys2Proof/Machine/Ops.lean ====
section
/-! DEFINITION. The named operations on the state: reads and writes of the storage files (10_state.md R40-R43), the record of a
command failure and its clearing (60_exceptions.md R242, R253), issue and completion of a command (40_system.md R111, R112) and
reset (70_reset_and_hazards.md R271). -/

namespace Sys2Proof.Machine

/-! ## Indexed memories -/

/-- The canonical form of a memory: the last listed entry, if there is one, is not 0 (DESIGN CHOICE, assumption 5). -/
abbrev Memory.wf (mem : Memory) : Prop := mem.getLast? ≠ some 0

/-- Entry `i` of a memory; an unlisted entry reads 0 (10_state.md R41, R43, R48). -/
def Memory.read (mem : Memory) (i : Nat) : Nat := mem.getD i 0

/-- Write entry `i`, keeping the canonical form. -/
def Memory.write : Memory → Nat → Nat → Memory
  | [], 0, v => consTrim v []
  | [], i + 1, v => consTrim 0 (Memory.write [] i v)
  | _ :: xs, 0, v => consTrim v xs
  | x :: xs, i + 1, v => consTrim x (Memory.write xs i v)

/-- The first `n` entries of a memory, unlisted ones 0. -/
def Memory.firstEntries (mem : Memory) (n : Nat) : List Nat := (mem ++ List.replicate (n - mem.length) 0).take n

/-! ## Storage files -/

/-- The low `MMAX` bits of a value: what an element of `E`, `P` or `SUP` holds of it (10_state.md R40, R41, R43; DEDUCED,
assumption 14). -/
def element (b : Build) (v : Nat) : Nat := v % 2 ^ b.mmax

/-- Write `E[i]` (10_state.md R40). -/
def State.setE (s : State) (i : Fin 16) (v : Nat) : State := { s with e := s.e.set i (element s.caps v) }

/-- What a polynomial register of build `b` holds of a polynomial: "sets `P[i].c[j] <- q_j` for every `j < PCAP`" (10_state.md R41;
DEDUCED, assumption 14). -/
def storedPoly (b : Build) (q : Poly) : Poly := norm ((q.take b.pcap).map (element b))

/-- Write a polynomial to `P[i]` (10_state.md R41). -/
def State.setP (s : State) (i : Fin 16) (q : Poly) : State := { s with p := s.p.set i (storedPoly s.caps q) }

/-- A matrix with every bit outside its columns 0 (10_state.md R42; DEDUCED, assumption 14). -/
def Mat.masked (A : Mat) : Mat := { A with row := A.row.map (· % 2 ^ A.cols) }

/-- Write a matrix to `M[i]`: "the bits inside from `A` and every bit outside to 0" (10_state.md R42). -/
def State.setM (s : State) (i : Fin 8) (A : Mat) : State := { s with m := s.m.set i A.masked }

/-- Copy `E[b]` to `E[a]` (40_system.md R117). -/
def State.moveE (s : State) (a b : Fin 16) : State := { s with e := s.e.set a s.e[b] }

/-- Copy every coefficient of `P[b]` to `P[a]` (40_system.md R117). -/
def State.moveP (s : State) (a b : Fin 16) : State := { s with p := s.p.set a s.p[b] }

/-- Copy the rows, columns and every bit of `M[b]` to `M[a]` (40_system.md R117). -/
def State.moveM (s : State) (a b : Fin 8) : State := { s with m := s.m.set a s.m[b] }

/-- Write `SUP[i]` (10_state.md R43). -/
def State.setSup (s : State) (i : Nat) (v : Nat) : State := { s with sup := Memory.write s.sup i (element s.caps v) }

/-- Write `SUP[0..n−1]` from a list of `n` values, the other entries unchanged (40_system.md R116). -/
def State.setSupFirst (s : State) (vs : List Nat) : State :=
  { s with sup := norm (vs.map (element s.caps) ++ s.sup.drop vs.length) }

/-- Write `RES_COUNT` (10_state.md R34). -/
def State.setCount (s : State) (n : Nat) : State := { s with resCount := BitVec.ofNat 32 n }

/-- Write `RES_RANK` (10_state.md R35). -/
def State.setRank (s : State) (n : Nat) : State := { s with resRank := BitVec.ofNat 32 n }

/-- Write `RES_FLAG` bit 0 (10_state.md R36). -/
def State.setFlag (s : State) (b : Bool) : State := { s with resFlag := b }

/-- Set `STATUS.CFG_VALID` (10_state.md R30). -/
def State.setCfgValid (s : State) (b : Bool) : State := { s with status := { s.status with cfgValid := b } }

/-! ## What a command reads besides its operands -/

/-- The active field; meaningful while CFG_VALID = 1 (10_state.md R30). -/
def State.field (s : State) : Gf := { m := s.cfgM.toNat, f := s.cfgFmod.toNat }

/-- The code length `N = CFG_N` (10_state.md R29). -/
def State.codeLength (s : State) : Nat := s.cfgN.toNat

/-- The support `SUP[0..N−1]` (10_state.md R43). -/
def State.support (s : State) : List Nat := Memory.firstEntries s.sup s.codeLength

/-- The zero-syndrome policy of the completing command: the value sampled at issue (44_goppa.md R223); with no command pending,
CTRL.ZS_PASS (DESIGN CHOICE, assumption 12). -/
def State.sampledZs (s : State) : Bool :=
  match s.pend with
  | .run _ zs => zs
  | .none => s.ctrl.zsPass
  | .init => s.ctrl.zsPass

/-! ## A command failure: the block's exception entry and return (60_exceptions.md R242, R252, R253) -/

/-- Record the failure of the word `w` with code `k`: the first one since ERR was cleared is kept, a later one sets ERRM
(60_exceptions.md R242). -/
def State.recordFailure (s : State) (k : ErrCode) (w : Word) : State :=
  if s.status.err then { s with status := { s.status with errm := true } }
  else { s with status := { s.status with err := true, errcode := k }, errcmd := w }

/-- Clear ERR, ERRM, ERRCODE and ERRCMD together, the host's "return" (10_state.md R26; 60_exceptions.md R253). -/
def State.clearFailure (s : State) : State :=
  { s with status := { s.status with err := false, errm := false, errcode := .none }, errcmd := 0 }

/-! ## The command cycle -/

/-- Issue of the word `w` (40_system.md R111): ZS_PASS is sampled, DONE cleared, nothing else changes. -/
def State.issue (s : State) (w : Word) : State :=
  { s with pend := .run w s.ctrl.zsPass, status := { s.status with done := false } }

/-- The end of every completion: DONE set, idle (40_system.md R112). -/
def State.finish (s : State) : State := { s with pend := .none, status := { s.status with done := true } }

/-- Completion of the failing word `w` with code `k`: nothing is written but the record (60_exceptions.md R241). -/
def State.fail (s : State) (k : ErrCode) (w : Word) : State := (s.recordFailure k w).finish

/-- The error code of a word the decoder refuses (30_encoding.md R93). -/
def decodeErrCode : DecodeError → ErrCode
  | .illegalOpcode => .illegalOpcode
  | .illegalField => .illegalField

/-! ## Reset -/

/-- The reset of 70_reset_and_hazards.md R271, by the reset input or by SOFT_RESET: every piece of the block's state takes its reset
value. The build is constant; the events still to come and the last read value are not the block's state (DESIGN CHOICE, assumptions 2, 4). -/
def State.resetBlock (s : State) : State := { State.resetOf s.caps with inbox := s.inbox, rdata := s.rdata }

end Sys2Proof.Machine
end

