-- ==== Sys2Proof/Machine/Operands.lean ====
section
/-! DEFINITION. The operand checks of the commands: the `require` of 00_scope.md R13, range checks (41_field.md R130, 42_polynomial.md
R150), code length (40_system.md R115), received vector and `GoppaPre` (44_goppa.md R210), and which commands need an active field
(40_system.md R118). -/

namespace Sys2Proof.Machine

/-- `require COND else CODE` (00_scope.md R13). -/
def require (cond : Bool) (k : ErrCode) : Except ErrCode Unit := if cond then .ok () else .error k

/-- The commands that need an active field (40_system.md R118). -/
def needsField : Instr → Bool
  | .nop | .config | .emov _ _ | .pmov _ _ | .mmov _ _ => false
  | .mmul _ _ _ | .madd _ _ _ | .mtrans _ _ | .mhcat _ _ _ => false
  | .mrowred _ _ | .mnull _ _ | .minv _ _ | .mdet _ => false
  | .supinit => true
  | .fadd _ _ _ | .fmul _ _ _ | .finv _ _ | .fpow _ _ _ | .fsqrt _ _ => true
  | .padd _ _ _ | .pmul _ _ _ | .pdivmod _ _ _ _ | .pmod _ _ _ | .pinvmod _ _ _ => true
  | .psplit _ _ _ | .psqrtmod _ _ _ | .peval _ _ _ | .proots _ _ | .pirred _ => true
  | .pcheck _ _ | .synd _ _ _ | .latred _ _ _ _ | .patterson _ _ _ _ | .decode _ _ _ _ _ => true

/-- Every value of a list is a field element (41_field.md R130). A polynomial register's unlisted coefficients are 0, so checking the
listed ones checks all `PCAP` (42_polynomial.md R150). -/
def allInF (F : Gf) (vs : List Nat) : Bool := vs.all (inF F)

/-- `CheckN` (40_system.md R115). -/
def checkN (s : State) : Bool :=
  (1 ≤ s.codeLength && s.codeLength ≤ s.caps.nmax) && s.codeLength ≤ 2 ^ s.field.m

/-- The received vector is `1 × N` (44_goppa.md R217, R222, R226). -/
def isReceived (s : State) (r : Mat) : Bool := r.rows == 1 && r.cols == s.codeLength

/-- `g(α_j) ≠ 0` for every support entry (44_goppa.md R212). -/
def supportValid (s : State) (g : Poly) : Bool := s.support.all fun α => peval s.field g α ≠ 0

/-- `GoppaPre(g, true)` (44_goppa.md R210) for a command whose only P source operand is `g`. -/
def goppaPre (s : State) (g : Poly) : Except ErrCode Unit := do
  require (allInF s.field g) .operandRange
  require (allInF s.field s.support) .operandRange
  require (1 ≤ deg g) .goppaDegree
  require (supportValid s g) .badSupport

end Sys2Proof.Machine
end

