-- ==== Sys2Proof/Machine/Flags.lean ====
section
/-! DEFINITION. The flags of the block (10_state.md R46): BUSY and the words of STATUS and CTRL, the interrupt output, the W1C write of
STATUS, and the one place where a command's outcome sets them (40_system.md R112). -/

namespace Sys2Proof.Machine

/-- `STATUS.BUSY` (10_state.md R44). -/
def State.busy (s : State) : Bool := s.pend ≠ .none

/-- The interrupt output (60_exceptions.md R250). -/
def State.irq (s : State) : Bool := s.ctrl.irqEn && (s.status.done || s.status.err)

/-- The value of an error code (60_exceptions.md R240). -/
def ErrCode.value : ErrCode → Byte
  | .none => 0x00 | .illegalOpcode => 0x01 | .illegalField => 0x02 | .notConfigured => 0x03
  | .badConfig => 0x04 | .operandRange => 0x05 | .divZero => 0x06 | .notInvertible => 0x07
  | .singular => 0x08 | .zeroSyndrome => 0x09 | .decodeFailure => 0x0A | .dimMismatch => 0x0B
  | .capacity => 0x0C | .badLength => 0x0D | .badN => 0x0E | .goppaDegree => 0x0F | .badSupport => 0x10

/-- A flag as one bit. -/
def bit1 (b : Bool) : BitVec 1 := BitVec.ofBool b

/-- The value a read of STATUS returns (10_state.md R26). -/
def State.statusWord (s : State) : Word :=
  atBit (bit1 s.busy) 0 ||| atBit (bit1 s.status.done) 1 ||| atBit (bit1 s.status.err) 2
    ||| atBit (bit1 s.status.errm) 3 ||| atBit (bit1 s.status.ovr) 4 ||| atBit (bit1 s.status.aerr) 5
    ||| atBit (bit1 s.status.cfgValid) 6 ||| atBit s.status.errcode.value 8

/-- The value a read of CTRL returns: bit 0 reads 0 (10_state.md R25). -/
def Ctrl.word (c : Ctrl) : Word := atBit (bit1 c.irqEn) 1 ||| atBit (bit1 c.zsPass) 2

/-- The value a read of DSEL returns (10_state.md R37). -/
def Dsel.word (d : Dsel) : Word := atBit d.space 0 ||| atBit d.reg 8 ||| atBit (bit1 d.autoinc) 16

/-- What a write of `v` stores in DSEL: reserved bits are ignored (10_state.md R37). -/
def dselOfWord (v : Word) : Dsel :=
  { space := v.extractLsb' 0 3, reg := v.extractLsb' 8 4, autoinc := v.getLsbD 16 }

/-- What a write of `v` with bit 0 = 0 stores in CTRL (10_state.md R25). -/
def ctrlOfWord (v : Word) : Ctrl := { irqEn := v.getLsbD 1, zsPass := v.getLsbD 2 }

/-- Clear DONE. -/
def State.clearDone (s : State) : State := { s with status := { s.status with done := false } }

/-- Clear OVR. -/
def State.clearOvr (s : State) : State := { s with status := { s.status with ovr := false } }

/-- Clear AERR. -/
def State.clearAerr (s : State) : State := { s with status := { s.status with aerr := false } }

/-- Set OVR, a hazard violation (70_reset_and_hazards.md R283-R285). -/
def State.setOvr (s : State) : State := { s with status := { s.status with ovr := true } }

/-- Set AERR, a rejected host access (20_memory.md R62, R67, R69, R70). -/
def State.setAerr (s : State) : State := { s with status := { s.status with aerr := true } }

/-- A host write of `v` to STATUS, in the order of 10_state.md R26. -/
def State.writeStatus (s : State) (v : Word) : State :=
  let s1 := if v.getLsbD 1 then s.clearDone else s
  let s2 := if v.getLsbD 2 then s1.clearFailure else s1
  let s3 := if v.getLsbD 4 then s2.clearOvr else s2
  if v.getLsbD 5 then s3.clearAerr else s3

/-- `Exec` of 40_system.md R112 for the decoded command `i`: the distinct-destination check of 30_encoding.md R93, the
active-field check of R118, then the command's own pseudocode. -/
def commandOutcome (i : Instr) (s : State) (body : Except ErrCode State) : Except ErrCode State := do
  require i.wellFormed .illegalField
  require (!needsField i || s.status.cfgValid) .notConfigured
  body

/-- The atomic update of 40_system.md R112: on success every write of the command (the state `body` answers), on failure only the
record; in both cases DONE is set and the block is idle. `i`'s word is `encode i` (DESIGN CHOICE, assumption 12). -/
def complete (i : Instr) (s : State) (body : Except ErrCode State) : Host.Outcome State Fault Refusal :=
  match commandOutcome i s body with
  | .ok t => .next t.finish
  | .error k => .next (s.fail k (encode i))

end Sys2Proof.Machine
end

