-- ==== Sys2Proof/Machine/Bus.lean ====
section
/-! DEFINITION. Host accesses to the 256-byte window (20_memory.md R60-R72, 10_state.md R21-R39, R47) and their outcome while the block
is busy (70_reset_and_hazards.md R283-R287). -/

namespace Sys2Proof.Machine

/-! ## The window -/

/-- The offset in the window of a host address, `none` outside the block's 256 bytes (20_memory.md R60). -/
def windowOffset (addr : Nat) : Option (BitVec 8) :=
  if Config.base ≤ addr ∧ addr < Config.base + 256 then some (BitVec.ofNat 8 (addr - Config.base)) else none

/-- The host address of byte lane `i` of the register at an offset (20_memory.md R61). -/
def laneAddress (off : BitVec 8) (i : Nat) : Nat := Config.base + off.toNat + i

/-- The block's part of a host access to an address: nothing outside the window (20_memory.md R60). -/
def hostEventAt (addr : Nat) (width : AccessWidth) (kind : AccessKind) : List HostEvent :=
  match windowOffset addr with
  | none => []
  | some off => [.access { off := off, width := width, kind := kind }]

/-! ## The data port -/

/-- One element of an internal space (20_memory.md R63). -/
inductive PortElement where
  /-- `E[i]` -/
  | e (i : Fin 16)
  /-- `P[r].c[j]` -/
  | p (r : Fin 16) (j : Nat)
  /-- 32 bits of row `row` of `M[r]` from column `32·w` on -/
  | mdata (r : Fin 8) (row w : Nat)
  /-- `M[r].rows` -/
  | mrows (r : Fin 8)
  /-- `M[r].cols` -/
  | mcols (r : Fin 8)
  /-- `SUP[j]` -/
  | sup (j : Nat)
  /-- `deg(P[i])`, read-only -/
  | pdeg (i : Fin 16)
deriving DecidableEq, Repr

/-- The matrix register DSEL.REG names, `none` for 8 to 15 (20_memory.md R63, R70). -/
def selectedM (s : State) : Option (Fin 8) :=
  if s.dsel.reg.toNat < 8 then some (Fin.ofNat 8 s.dsel.reg.toNat) else none

/-- The element DSEL and DIDX select, `none` where the access is rejected (20_memory.md R63, R70). -/
def selectedElement (s : State) : Option PortElement :=
  let i := s.didx.toNat
  match s.dsel.space.toNat with
  | 0 => if i < 16 then some (.e (Fin.ofNat 16 i)) else none
  | 1 => if i < s.caps.pcap then some (.p (Fin.ofNat 16 s.dsel.reg.toNat) i) else none
  | 2 =>
    match selectedM s with
    | none => none
    | some r =>
      if i < s.caps.rmax * s.caps.wpr then some (.mdata r (i / s.caps.wpr) (i % s.caps.wpr)) else none
  | 3 =>
    match selectedM s with
    | none => none
    | some r => if i = 0 then some (.mrows r) else if i = 1 then some (.mcols r) else none
  | 4 => if i < s.caps.nmax then some (.sup i) else none
  | 5 => if i < 16 then some (.pdeg (Fin.ofNat 16 i)) else none
  | _ => none

/-- The value of an element (20_memory.md R64-R69). -/
def readElement (s : State) : PortElement → Word
  | .e i => BitVec.ofNat 32 s.e[i]
  | .p r j => BitVec.ofNat 32 (Memory.read s.p[r] j)
  | .mdata r row w => BitVec.ofNat 32 (s.m[r].rowAt row >>> (32 * w))
  | .mrows r => BitVec.ofNat 32 s.m[r].rows
  | .mcols r => BitVec.ofNat 32 s.m[r].cols
  | .sup j => BitVec.ofNat 32 (Memory.read s.sup j)
  | .pdeg i => BitVec.ofInt 32 (deg s.p[i])

/-- A row of `cols` columns with columns `32w` to `32w+31` taken from `v`, the bits of `v` outside the columns discarded
(20_memory.md R66). -/
def rowWithWord (row cols w : Nat) (v : Word) : Nat :=
  ((row ^^^ (((row >>> (32 * w)) % 2 ^ 32) <<< (32 * w))) ||| (v.toNat <<< (32 * w))) % 2 ^ cols

/-- Replace a matrix register. -/
def State.putM (s : State) (r : Fin 8) (A : Mat) : State := { s with m := s.m.set r A }

/-- The matrix with `n` rows: rows from `n` on dropped, new rows 0 (20_memory.md R67). -/
def Mat.resizeRows (A : Mat) (n : Nat) : Mat :=
  { A with row := A.row.take n ++ List.replicate (n - A.row.length) 0 }

/-- The matrix with `n` columns: bits of columns from `n` on 0 (20_memory.md R67). -/
def Mat.resizeCols (A : Mat) (n : Nat) : Mat := { cols := n, row := A.row.map (· % 2 ^ n) }

/-- Store a value in an element; a dimension above its limit and a write of PDEG are ignored and set AERR (20_memory.md R64-R69). -/
def writeElement (s : State) (v : Word) : PortElement → State
  | .e i => s.setE i v.toNat
  | .p r j => { s with p := s.p.set r (Memory.write s.p[r] j (element s.caps v.toNat)) }
  | .mdata r row w =>
    if row < s.m[r].rows then
      s.putM r { s.m[r] with row := s.m[r].row.set row (rowWithWord (s.m[r].rowAt row) s.m[r].cols w v) }
    else s
  | .mrows r => if v.toNat ≤ s.caps.rmax then s.putM r (s.m[r].resizeRows v.toNat) else s.setAerr
  | .mcols r => if v.toNat ≤ s.caps.cmax then s.putM r (s.m[r].resizeCols v.toNat) else s.setAerr
  | .sup j => s.setSup j v.toNat
  | .pdeg _ => s.setAerr

/-- AUTOINC after a DDATA access while idle, accepted or not (20_memory.md R71; DEDUCED, assumption 13). -/
def State.autoInc (s : State) : State := if s.dsel.autoinc then { s with didx := s.didx + 1 } else s

/-- A read of DDATA: the value and the state after (20_memory.md R63-R71; while busy 70_reset_and_hazards.md R285). -/
def readData (s : State) : Word × State :=
  if s.busy then (0, s.setOvr)
  else
    match selectedElement s with
    | none => (0, s.setAerr.autoInc)
    | some el => (readElement s el, s.autoInc)

/-- A write of DDATA (20_memory.md R63-R71; while busy 70_reset_and_hazards.md R285). -/
def writeData (s : State) (v : Word) : State :=
  if s.busy then s.setOvr
  else
    match selectedElement s with
    | none => s.setAerr.autoInc
    | some el => (writeElement s v el).autoInc

/-! ## Registers -/

/-- `CAP0` (10_state.md R23). -/
def Build.cap0 (b : Build) : Word := atBit (BitVec.ofNat 8 b.mmax) 0 ||| atBit (BitVec.ofNat 16 b.pcap) 16

/-- The value of the register at a word offset other than DDATA (10_state.md R21); a write-only register and a reserved offset
read 0 (R31, R47). CAP1 is the low 32 bits of RMAX, so it reads 0 in a build with RMAX = 2^32, which 00_scope.md R6 allows and
R24 does not provide for (DESIGN CHOICE, assumption 17). -/
def readRegister (s : State) (off : Nat) : Word :=
  match off with
  | 0x00 => Config.idWord
  | 0x04 => Build.cap0 s.caps
  | 0x08 => BitVec.ofNat 32 s.caps.rmax
  | 0x0C => BitVec.ofNat 32 s.caps.cmax
  | 0x10 => BitVec.ofNat 32 s.caps.nmax
  | 0x14 => s.ctrl.word
  | 0x18 => s.statusWord
  | 0x20 => s.errcmd
  | 0x24 => atBit s.cfgM 0
  | 0x28 => s.cfgFmod
  | 0x2C => s.cfgN
  | 0x30 => s.arg0
  | 0x34 => s.resCount
  | 0x38 => s.resRank
  | 0x3C => atBit (bit1 s.resFlag) 0
  | 0x40 => s.dsel.word
  | 0x44 => s.didx
  | _ => 0

/-- `BusRead(off)` at a word-aligned offset: the value returned and the state after (20_memory.md R60, R72). -/
def busRead (s : State) (off : Nat) : Word × State :=
  if off = 0x48 then readData s else (readRegister s off, s)

/-- A write of CTRL: a soft reset if bit 0 is 1, else IRQ_EN and ZS_PASS (10_state.md R25; also while busy, R286). -/
def writeCtrl (s : State) (v : Word) : State :=
  if v.getLsbD 0 then s.resetBlock else { s with ctrl := ctrlOfWord v }

/-- A write of CMD: issue while idle, dropped with OVR while busy (40_system.md R111; 70_reset_and_hazards.md R283). -/
def writeCmd (s : State) (v : Word) : State := if s.busy then s.setOvr else s.issue v

/-- A write of CFG_M clears CFG_VALID; ignored with OVR while busy (10_state.md R27; 70_reset_and_hazards.md R284). -/
def writeCfgM (s : State) (v : Word) : State :=
  if s.busy then s.setOvr else { s.setCfgValid false with cfgM := v.setWidth 5 }

/-- A write of CFG_FMOD clears CFG_VALID; ignored with OVR while busy (10_state.md R28; 70_reset_and_hazards.md R284). -/
def writeCfgFmod (s : State) (v : Word) : State :=
  if s.busy then s.setOvr else { s.setCfgValid false with cfgFmod := v }

/-- A write of CFG_N; ignored with OVR while busy (10_state.md R29; 70_reset_and_hazards.md R284). -/
def writeCfgN (s : State) (v : Word) : State := if s.busy then s.setOvr else { s with cfgN := v }

/-- A write of ARG0; ignored with OVR while busy (10_state.md R33; 70_reset_and_hazards.md R284). -/
def writeArg0 (s : State) (v : Word) : State := if s.busy then s.setOvr else { s with arg0 := v }

/-- `BusWrite(off, v)` at a word-aligned offset; read-only registers and reserved offsets ignore it (10_state.md R21, R47;
70_reset_and_hazards.md R287). -/
def busWrite (s : State) (off : Nat) (v : Word) : State :=
  match off with
  | 0x14 => writeCtrl s v
  | 0x18 => s.writeStatus v
  | 0x1C => writeCmd s v
  | 0x24 => writeCfgM s v
  | 0x28 => writeCfgFmod s v
  | 0x2C => writeCfgN s v
  | 0x30 => writeArg0 s v
  | 0x40 => { s with dsel := dselOfWord v }
  | 0x44 => { s with didx := v }
  | 0x48 => writeData s v
  | _ => s

/-- The access is a 32-bit one at a multiple of 4, the only ones defined (20_memory.md R62). -/
def Access.defined (a : Access) : Bool := a.width == .word && a.off.toNat % 4 == 0

/-- The effect of one host access: an undefined one reads 0 or is ignored, and sets AERR (20_memory.md R62); the value a read
returns goes to `rdata` (DESIGN CHOICE, assumption 4). -/
def hostAccess (s : State) (a : Access) : State :=
  if a.defined then
    match a.kind with
    | .read => { (busRead s a.off.toNat).2 with rdata := (busRead s a.off.toNat).1 }
    | .write v => busWrite s a.off.toNat v
  else
    match a.kind with
    | .read => { s.setAerr with rdata := 0 }
    | .write _ => s.setAerr

end Sys2Proof.Machine
end

