-- ==== Sys2Proof/Machine/FieldUnit.lean ====
section
/-! DEFINITION. Field commands (41_field.md R137-R141). -/

namespace Sys2Proof.Machine

/-- FADD (R137). -/
def execFadd (a b c : EReg) (s : State) : Host.Outcome State Fault Refusal :=
  complete (.fadd a b c) s do
    require (inF s.field s.e[b] && inF s.field s.e[c]) .operandRange
    return s.setE a (gadd s.e[b] s.e[c])

/-- FMUL (R138). -/
def execFmul (a b c : EReg) (s : State) : Host.Outcome State Fault Refusal :=
  complete (.fmul a b c) s do
    require (inF s.field s.e[b] && inF s.field s.e[c]) .operandRange
    return s.setE a (gmul s.field s.e[b] s.e[c])

/-- FINV (R139). -/
def execFinv (a b : EReg) (s : State) : Host.Outcome State Fault Refusal :=
  complete (.finv a b) s do
    require (inF s.field s.e[b]) .operandRange
    require (s.e[b] ≠ 0) .divZero
    return s.setE a (ginv s.field s.e[b])

/-- FPOW (R140): the exponent is the whole stored value, not range-checked. -/
def execFpow (a b c : EReg) (s : State) : Host.Outcome State Fault Refusal :=
  complete (.fpow a b c) s do
    require (inF s.field s.e[b]) .operandRange
    return s.setE a (gpow s.field s.e[b] s.e[c])

/-- FSQRT (R141). -/
def execFsqrt (a b : EReg) (s : State) : Host.Outcome State Fault Refusal :=
  complete (.fsqrt a b) s do
    require (inF s.field s.e[b]) .operandRange
    return s.setE a (gsqrt s.field s.e[b])

end Sys2Proof.Machine
end

