-- ==== Sys2Proof/Machine/GoppaArith.lean ====
section
/-! DEFINITION. The functions of the Goppa unit: parity-check matrix (44_goppa.md R213), syndrome (R216), lattice reduction (R218),
Patterson decoding (R220) and message recovery (R225). -/

namespace Sys2Proof.Machine

/-- `Hm[i][j]` of 44_goppa.md R213 for the support entry `α` with `y = ginv(peval(g, α))`; `t` is `deg(g)`. -/
def hEntry (F : Gf) (g : Poly) (t i α y : Nat) : Nat :=
  (List.range (i + 1)).foldl
    (fun acc l => acc ^^^ gmul F (gmul F (coeff g (t - i + l)) (gpow F α l)) y) 0

/-- `pcheckmat(g, α_0 .. α_(N−1))` (44_goppa.md R213): the `(t·m) × N` binary matrix, bit `b` of entry `(i, j)` at row `i·m + b`. -/
def pcheckmat (F : Gf) (g : Poly) (sup : List Nat) : Mat :=
  let t := (deg g).toNat
  let cols := sup.map fun α => (α, ginv F (peval F g α))
  { cols := sup.length
    row := (List.range t).flatMap fun i =>
      let entries := cols.map fun (α, y) => hEntry F g t i α y
      (List.range F.m).map fun b => packBits (entries.map (·.testBit b)) }

/-- The sum of `synd` (44_goppa.md R216) over the support entries from position `j` on. `pinvmod` succeeds at every entry that the
support check accepts; its error is passed on otherwise (DEDUCED, assumption 11). -/
def syndSum (F : Gf) (g : Poly) (r : Nat) : List Nat → Nat → Except ErrCode Poly
  | [], _ => .ok []
  | α :: rest, j =>
    match syndSum F g r rest (j + 1) with
    | .error k => .error k
    | .ok S =>
      if r.testBit j then
        match pinvmod F (norm [α, 1]) g with
        | .error k => .error k
        | .ok u => .ok (padd u S)
      else .ok S

/-- `synd(r, g)` (44_goppa.md R216) for the packed vector `r`. -/
def synd (F : Gf) (g : Poly) (r : Nat) (sup : List Nat) : Except ErrCode Poly :=
  match syndSum F g r sup 0 with
  | .error k => .error k
  | .ok S => .ok (pmod F S g)

/-- `nd(a, b) = max(2·deg(a), 2·deg(b) + 1)` (44_goppa.md R218; −1 stands for −∞, DEDUCED, assumption 10). -/
def nd (a b : Poly) : Int := max (2 * deg a) (2 * deg b + 1)

/-- The loop of `latred` (44_goppa.md R218), at most `n` rounds. -/
def latredLoop (F : Gf) (t : Int) : Nat → Poly → Poly → Poly → Poly → Poly × Poly
  | 0, _, _, a, b => (a, b)
  | n + 1, a0, b0, a, b =>
    if nd a b ≤ t then (a, b)
    else
      let qr := pdivmod F a0 a
      latredLoop F t n a b qr.2 (padd b0 (pmul F qr.1 b))

/-- `latred(τ, g)` (44_goppa.md R218: "the loop runs at most `t + 1` times"). -/
def latred (F : Gf) (τ g : Poly) : Poly × Poly :=
  latredLoop F (deg g) ((deg g).toNat + 1) (norm g) [] (pmod F τ g) [1]

/-- Result of `patterson` (44_goppa.md R220): corrected vector (packed), error locator, root count. -/
structure Decoded where
  c : Nat
  σ : Poly
  count : Nat
deriving DecidableEq, Repr

/-- `τ` of 44_goppa.md R220 step 3 for a nonzero syndrome `S`. -/
def patTau (F : Gf) (S g : Poly) : Except ErrCode Poly :=
  match pinvmod F S g with
  | .error k => .error k
  | .ok sinv => psqrtmod F (pmod F (padd sinv polyX) g) g

/-- `σ = α² + x·β²` of 44_goppa.md R220 steps 4 and 5. -/
def locator (F : Gf) (τ g : Poly) : Poly :=
  let ab := latred F τ g
  padd (pmul F ab.1 ab.1) (pshift 1 (pmul F ab.2 ab.2))

/-- `v[j] = 1` iff `peval(A, α_j) = 0` (42_polynomial.md R166, 44_goppa.md R220 step 6). -/
def rootBits (F : Gf) (A : Poly) (sup : List Nat) : List Bool := sup.map fun α => peval F A α == 0

/-- `patterson(r, g, zs)` (44_goppa.md R220). -/
def patterson (F : Gf) (g : Poly) (r : Nat) (sup : List Nat) (zs : Bool) : Except ErrCode Decoded :=
  match synd F g r sup with
  | .error k => .error k
  | .ok S =>
    if isZero S then
      if zs then .ok { c := r, σ := [1], count := 0 } else .error .zeroSyndrome
    else
      match patTau F S g with
      | .error k => .error k
      | .ok τ =>
        let σ := locator F τ g
        let roots := rootBits F σ sup
        if (countTrue roots : Int) = deg σ then .ok { c := r ^^^ packBits roots, σ := σ, count := countTrue roots }
        else .error .decodeFailure

/-- The `N × (k + 1)` matrix `[Gᵗ | cᵗ]` of 44_goppa.md R225 for a packed vector `c`. -/
def solveMat (G : Mat) (c : Nat) : Mat := matHcat (matTrans G) (matTrans { cols := G.cols, row := [c] })

/-- `solve(G, c)` (44_goppa.md R225): the `1 × k` message and the rank. -/
def solve (G : Mat) (c : Nat) : Mat × Nat :=
  let k := G.rows
  let R := rref (solveMat G c) k
  (rowVector ((List.range k).map fun j => (R.row.getD j 0).testBit k), R.rank)

end Sys2Proof.Machine
end

