-- ==== Sys2Proof/Machine/GoppaUnit.lean ====
section
/-! DEFINITION. Goppa commands (44_goppa.md R215-R226). -/

namespace Sys2Proof.Machine

/-- PCHECK (R215). -/
def execPcheck (a : MReg) (b : PReg) (s : State) : Host.Outcome State Fault Refusal :=
  complete (.pcheck a b) s do
    require (checkN s) .badN
    goppaPre s s.p[b]
    require ((deg s.p[b]).toNat * s.field.m ≤ s.caps.rmax) .capacity
    return s.setM a (pcheckmat s.field s.p[b] s.support)

/-- SYND (R217). -/
def execSynd (a : PReg) (b : MReg) (c : PReg) (s : State) : Host.Outcome State Fault Refusal :=
  complete (.synd a b c) s do
    require (checkN s) .badN
    require (isReceived s s.m[b]) .badLength
    goppaPre s s.p[c]
    let S ← synd s.field s.p[c] (s.m[b].rowAt 0) s.support
    return s.setP a S

/-- LATRED (R219): `GoppaPre` without the support; `τ` is checked before `g`. -/
def execLatred (a b c d : PReg) (s : State) : Host.Outcome State Fault Refusal :=
  complete (.latred a b c d) s do
    require (allInF s.field s.p[c]) .operandRange
    require (allInF s.field s.p[d]) .operandRange
    require (1 ≤ deg s.p[d]) .goppaDegree
    let ab := latred s.field s.p[c] s.p[d]
    return (s.setP a ab.1).setP b ab.2

/-- PATTERSON (R222). -/
def execPatterson (a b : MReg) (c d : PReg) (s : State) : Host.Outcome State Fault Refusal :=
  complete (.patterson a b c d) s do
    require (checkN s) .badN
    require (isReceived s s.m[b]) .badLength
    goppaPre s s.p[c]
    let r ← patterson s.field s.p[c] (s.m[b].rowAt 0) s.support s.sampledZs
    return ((s.setM a { cols := s.codeLength, row := [r.c] }).setP d r.σ).setCount r.count

/-- DECODE (R226): message to `a`, corrected vector to `e`. -/
def execDecode (a b : MReg) (c : PReg) (d e : MReg) (s : State) : Host.Outcome State Fault Refusal :=
  complete (.decode a b c d e) s do
    require (checkN s) .badN
    require (isReceived s s.m[b]) .badLength
    require (s.m[d].cols == s.codeLength) .dimMismatch
    require (s.m[d].rows ≤ s.caps.cmax) .capacity
    goppaPre s s.p[c]
    let r ← patterson s.field s.p[c] (s.m[b].rowAt 0) s.support s.sampledZs
    let ur := solve s.m[d] r.c
    return (((s.setM a ur.1).setM e { cols := s.codeLength, row := [r.c] }).setCount r.count).setRank ur.2

end Sys2Proof.Machine
end

