-- ==== Sys2Proof/Machine/MatUnit.lean ====
section
/-! DEFINITION. Matrix commands (43_matrix.md R182-R190). -/

namespace Sys2Proof.Machine

/-- MMUL (R182). -/
def execMmul (a b c : MReg) (s : State) : Host.Outcome State Fault Refusal :=
  complete (.mmul a b c) s do
    require (s.m[b].cols == s.m[c].rows) .dimMismatch
    return s.setM a (matMul s.m[b] s.m[c])

/-- MADD (R183). -/
def execMadd (a b c : MReg) (s : State) : Host.Outcome State Fault Refusal :=
  complete (.madd a b c) s do
    require (s.m[b].rows == s.m[c].rows && s.m[b].cols == s.m[c].cols) .dimMismatch
    return s.setM a (matAdd s.m[b] s.m[c])

/-- MTRANS (R184). -/
def execMtrans (a b : MReg) (s : State) : Host.Outcome State Fault Refusal :=
  complete (.mtrans a b) s do
    require (s.m[b].cols ≤ s.caps.rmax && s.m[b].rows ≤ s.caps.cmax) .capacity
    return s.setM a (matTrans s.m[b])

/-- MHCAT (R185). -/
def execMhcat (a b c : MReg) (s : State) : Host.Outcome State Fault Refusal :=
  complete (.mhcat a b c) s do
    require (s.m[b].rows == s.m[c].rows) .dimMismatch
    require (s.m[b].cols + s.m[c].cols ≤ s.caps.cmax) .capacity
    return s.setM a (matHcat s.m[b] s.m[c])

/-- MROWRED (R187): the column bound is ARG0. -/
def execMrowred (a b : MReg) (s : State) : Host.Outcome State Fault Refusal :=
  complete (.mrowred a b) s do
    require (s.arg0.toNat ≤ s.m[b].cols) .dimMismatch
    let R := rref s.m[b] s.arg0.toNat
    return (s.setM a { cols := s.m[b].cols, row := R.row }).setRank R.rank

/-- MNULL (R188). -/
def execMnull (a b : MReg) (s : State) : Host.Outcome State Fault Refusal :=
  complete (.mnull a b) s do
    let R := rref s.m[b] s.m[b].cols
    require (s.m[b].cols - R.rank ≤ s.caps.rmax) .capacity
    return (s.setM a (nullBasis s.m[b].cols R)).setRank R.rank

/-- MINV (R189): the right half of the reduced `[A | I]`. -/
def execMinv (a b : MReg) (s : State) : Host.Outcome State Fault Refusal :=
  complete (.minv a b) s do
    require (s.m[b].rows == s.m[b].cols) .dimMismatch
    let R := rref (matHcat s.m[b] (matId s.m[b].rows)) s.m[b].rows
    require (R.rank == s.m[b].rows) .singular
    return s.setM a (rightHalf s.m[b].rows R.row)

/-- MDET (R190): 1 iff the rank is full. -/
def execMdet (a : MReg) (s : State) : Host.Outcome State Fault Refusal :=
  complete (.mdet a) s do
    require (s.m[a].rows == s.m[a].cols) .dimMismatch
    return s.setFlag ((rref s.m[a] s.m[a].rows).rank == s.m[a].rows)

end Sys2Proof.Machine
end

