-- ==== Sys2Proof/Machine/PolyUnit.lean ====
section
/-! DEFINITION. Polynomial commands (42_polynomial.md R158-R167). -/

namespace Sys2Proof.Machine

/-- PADD (R158). -/
def execPadd (a b c : PReg) (s : State) : Host.Outcome State Fault Refusal :=
  complete (.padd a b c) s do
    require (allInF s.field s.p[b] && allInF s.field s.p[c]) .operandRange
    return s.setP a (padd s.p[b] s.p[c])

/-- PMUL (R159): a product of degree `PCAP` or more fails CAPACITY. -/
def execPmul (a b c : PReg) (s : State) : Host.Outcome State Fault Refusal :=
  complete (.pmul a b c) s do
    require (allInF s.field s.p[b] && allInF s.field s.p[c]) .operandRange
    let prod := pmul s.field s.p[b] s.p[c]
    require (isZero prod || deg prod ≤ (s.caps.pcap : Int) - 1) .capacity
    return s.setP a prod

/-- PDIVMOD (R160): quotient to `a`, remainder to `b`. -/
def execPdivmod (a b c d : PReg) (s : State) : Host.Outcome State Fault Refusal :=
  complete (.pdivmod a b c d) s do
    require (allInF s.field s.p[c] && allInF s.field s.p[d]) .operandRange
    require (!isZero s.p[d]) .divZero
    let qr := pdivmod s.field s.p[c] s.p[d]
    return (s.setP a qr.1).setP b qr.2

/-- PMOD (R161). -/
def execPmod (a b c : PReg) (s : State) : Host.Outcome State Fault Refusal :=
  complete (.pmod a b c) s do
    require (allInF s.field s.p[b] && allInF s.field s.p[c]) .operandRange
    require (!isZero s.p[c]) .divZero
    return s.setP a (pmod s.field s.p[b] s.p[c])

/-- PINVMOD (R162). -/
def execPinvmod (a b c : PReg) (s : State) : Host.Outcome State Fault Refusal :=
  complete (.pinvmod a b c) s do
    require (allInF s.field s.p[b] && allInF s.field s.p[c]) .operandRange
    let u ← pinvmod s.field s.p[b] s.p[c]
    return s.setP a u

/-- PSPLIT (R163): even part to `a`, odd part to `b`. -/
def execPsplit (a b c : PReg) (s : State) : Host.Outcome State Fault Refusal :=
  complete (.psplit a b c) s do
    require (allInF s.field s.p[c]) .operandRange
    let eo := psplit s.field s.p[c]
    return (s.setP a eo.1).setP b eo.2

/-- PSQRTMOD (R164). -/
def execPsqrtmod (a b c : PReg) (s : State) : Host.Outcome State Fault Refusal :=
  complete (.psqrtmod a b c) s do
    require (allInF s.field s.p[b] && allInF s.field s.p[c]) .operandRange
    let u ← psqrtmod s.field s.p[b] s.p[c]
    return s.setP a u

/-- PEVAL (R165). -/
def execPeval (a : EReg) (b : PReg) (c : EReg) (s : State) : Host.Outcome State Fault Refusal :=
  complete (.peval a b c) s do
    require (allInF s.field s.p[b]) .operandRange
    require (inF s.field s.e[c]) .operandRange
    return s.setE a (peval s.field s.p[b] s.e[c])

/-- PROOTS (R166): the `1 × N` vector of the support positions where the polynomial vanishes. -/
def execProots (a : MReg) (b : PReg) (s : State) : Host.Outcome State Fault Refusal :=
  complete (.proots a b) s do
    require (checkN s) .badN
    require (allInF s.field s.p[b]) .operandRange
    require (allInF s.field s.support) .operandRange
    let v := rootBits s.field s.p[b] s.support
    return (s.setM a (rowVector v)).setCount (countTrue v)

/-- PIRRED (R167). -/
def execPirred (a : PReg) (s : State) : Host.Outcome State Fault Refusal :=
  complete (.pirred a) s do
    require (allInF s.field s.p[a]) .operandRange
    return s.setFlag (pirred s.field s.p[a])

end Sys2Proof.Machine
end

