-- ==== Sys2Proof/Machine/System.lean ====
section
/-! DEFINITION. System commands (40_system.md R113-R117). -/

namespace Sys2Proof.Machine

/-- NOP (R113): nothing. -/
def execNop (s : State) : Host.Outcome State Fault Refusal := complete .nop s (.ok s)

/-- CONFIG (R114): validates CFG_M and CFG_FMOD and makes them the active field. -/
def execConfig (s : State) : Host.Outcome State Fault Refusal :=
  complete .config s do
    require (fieldOk s.caps.mmax s.cfgM.toNat s.cfgFmod.toNat) .badConfig
    return s.setCfgValid true

/-- SUPINIT (R116): `SUP[i] <- i` for `i < N`. -/
def execSupinit (s : State) : Host.Outcome State Fault Refusal :=
  complete .supinit s do
    require (checkN s) .badN
    return s.setSupFirst (List.range s.codeLength)

/-- EMOV (R117). -/
def execEmov (a b : EReg) (s : State) : Host.Outcome State Fault Refusal :=
  complete (.emov a b) s (.ok (s.moveE a b))

/-- PMOV (R117). -/
def execPmov (a b : PReg) (s : State) : Host.Outcome State Fault Refusal :=
  complete (.pmov a b) s (.ok (s.moveP a b))

/-- MMOV (R117): rows, columns and every bit. -/
def execMmov (a b : MReg) (s : State) : Host.Outcome State Fault Refusal :=
  complete (.mmov a b) s (.ok (s.moveM a b))

end Sys2Proof.Machine
end

