-- ==== Sys2Proof/Machine/Dispatch.lean ====
section
/-! DEFINITION. One arm per command of spec/opcode_table.json: the completion of a decoded command (40_system.md R112). -/

namespace Sys2Proof.Machine

/-- Completion of the command `i` in the state `s` (40_system.md R112). -/
def exec (i : Instr) (s : State) : Host.Outcome State Fault Refusal :=
  match i with
  | .nop => Sys2Proof.Machine.execNop s
  | .config => Sys2Proof.Machine.execConfig s
  | .supinit => Sys2Proof.Machine.execSupinit s
  | .emov a b => Sys2Proof.Machine.execEmov a b s
  | .pmov a b => Sys2Proof.Machine.execPmov a b s
  | .mmov a b => Sys2Proof.Machine.execMmov a b s
  | .fadd a b c => Sys2Proof.Machine.execFadd a b c s
  | .fmul a b c => Sys2Proof.Machine.execFmul a b c s
  | .finv a b => Sys2Proof.Machine.execFinv a b s
  | .fpow a b c => Sys2Proof.Machine.execFpow a b c s
  | .fsqrt a b => Sys2Proof.Machine.execFsqrt a b s
  | .padd a b c => Sys2Proof.Machine.execPadd a b c s
  | .pmul a b c => Sys2Proof.Machine.execPmul a b c s
  | .pdivmod a b c d => Sys2Proof.Machine.execPdivmod a b c d s
  | .pmod a b c => Sys2Proof.Machine.execPmod a b c s
  | .pinvmod a b c => Sys2Proof.Machine.execPinvmod a b c s
  | .psplit a b c => Sys2Proof.Machine.execPsplit a b c s
  | .psqrtmod a b c => Sys2Proof.Machine.execPsqrtmod a b c s
  | .peval a b c => Sys2Proof.Machine.execPeval a b c s
  | .proots a b => Sys2Proof.Machine.execProots a b s
  | .pirred a => Sys2Proof.Machine.execPirred a s
  | .mmul a b c => Sys2Proof.Machine.execMmul a b c s
  | .madd a b c => Sys2Proof.Machine.execMadd a b c s
  | .mtrans a b => Sys2Proof.Machine.execMtrans a b s
  | .mhcat a b c => Sys2Proof.Machine.execMhcat a b c s
  | .mrowred a b => Sys2Proof.Machine.execMrowred a b s
  | .mnull a b => Sys2Proof.Machine.execMnull a b s
  | .minv a b => Sys2Proof.Machine.execMinv a b s
  | .mdet a => Sys2Proof.Machine.execMdet a s
  | .pcheck a b => Sys2Proof.Machine.execPcheck a b s
  | .synd a b c => Sys2Proof.Machine.execSynd a b c s
  | .latred a b c d => Sys2Proof.Machine.execLatred a b c d s
  | .patterson a b c d => Sys2Proof.Machine.execPatterson a b c d s
  | .decode a b c d e => Sys2Proof.Machine.execDecode a b c d e s

end Sys2Proof.Machine
end

