-- ==== Sys2Proof/Machine/Cycle.lean ====
section
/-! DEFINITION. The steps of the two agents (40_system.md R110): the command engine's move and the delivery of one event. -/

namespace Sys2Proof.Machine

/-- The engine completes the issued word `w`: the checks of 30_encoding.md R93, then the command (40_system.md R112). -/
def runWord (w : Word) (s : State) : Host.Outcome State Fault Refusal :=
  match decodeWord w with
  | .ok i => exec i s
  | .error e => .next (s.fail (decodeErrCode e) w)

/-- The command engine's move: the end of the initialisation (70_reset_and_hazards.md R272) or the completion of the pending command
(40_system.md R112); none is enabled while idle, and the state stays (DESIGN CHOICE, assumption 3). -/
def engineMove (s : State) : Host.Outcome State Fault Refusal :=
  match s.pend with
  | .none => .next s
  | .init => .next { s with pend := .none }
  | .run w _ => runWord w s

/-- One event takes effect (40_system.md R110, 70_reset_and_hazards.md R270). -/
def deliver (ev : HostEvent) (s : State) : Host.Outcome State Fault Refusal :=
  match ev with
  | .access a => .next (hostAccess s a)
  | .resetInput => .next s.resetBlock
  | .engineTurn => engineMove s

/-- The next event of the inbox takes effect; with no event to come the engine moves (DESIGN CHOICE, assumptions 2 and 3). -/
def advance (s : State) : Host.Outcome State Fault Refusal :=
  match s.inbox with
  | [] => engineMove s
  | ev :: rest => deliver ev { s with inbox := rest }

/-- `s` with the word `w` issued to the engine and the engine's move next (DESIGN CHOICE, assumption 6). -/
def placeCommand (s : State) (w : Word) : State := { s.issue w with inbox := .engineTurn :: s.inbox }

end Sys2Proof.Machine
end

