-- ==== Sys2Proof/Machine/Step.lean ====
section
/-! DEFINITION. One step of the block: the next event takes effect (40_system.md R110). -/

namespace Sys2Proof.Machine

/-- One step (40_system.md R110; DESIGN CHOICE, assumptions 2 and 3). -/
def step (s : State) : Host.Outcome State Fault Refusal := advance s

/-- `s` with the command whose first `nbits` bits are `w` issued, so that the next step completes it (DESIGN CHOICE, assumption 6). -/
def State.withFetchWord (s : State) (nbits w : Nat) : State := placeCommand s (tableWord nbits w)

end Sys2Proof.Machine
end

