-- ==== Sys2Proof/Safety.lean ====
section
/-! DEFINITION. What the block's state keeps at every step (the invariant), and the vocabulary in which claims say what a command leaves
unchanged. -/

namespace Sys2Proof.Machine

/-! ## The invariant -/

/-- A polynomial register: canonical, at most `PCAP` coefficients of `MMAX` bits (10_state.md R41). -/
abbrev PolyOk (b : Build) (A : Poly) : Prop := Memory.wf A ∧ A.length ≤ b.pcap ∧ ∀ c ∈ A, c < 2 ^ b.mmax

/-- A matrix register: dimensions within the build, no bit outside them (10_state.md R42). The row count stays below `2^32` also in a
build with `RMAX = 2^32`: no command and no MDIM write makes more rows than a 32-bit value or a column count. -/
abbrev MatOk (b : Build) (A : Mat) : Prop :=
  A.rows ≤ b.rmax ∧ A.rows < 2 ^ 32 ∧ A.cols ≤ b.cmax ∧ ∀ r ∈ A.row, r < 2 ^ A.cols

/-- The support memory: canonical, at most `NMAX` entries of `MMAX` bits (10_state.md R43). -/
abbrev SupOk (b : Build) (mem : Memory) : Prop := Memory.wf mem ∧ mem.length ≤ b.nmax ∧ ∀ v ∈ mem, v < 2 ^ b.mmax

/-- The storage files hold what a register of their kind can hold (10_state.md R40-R43). -/
abbrev State.StorageOk (s : State) : Prop :=
  (∀ i : Fin 16, s.e[i] < 2 ^ s.caps.mmax) ∧ (∀ i : Fin 16, PolyOk s.caps s.p[i]) ∧
  (∀ i : Fin 8, MatOk s.caps s.m[i]) ∧ SupOk s.caps s.sup

/-- An active field has passed the checks of CONFIG (10_state.md R30). -/
abbrev State.FieldValid (s : State) : Prop :=
  s.status.cfgValid = true → fieldOk s.caps.mmax s.cfgM.toNat s.cfgFmod.toNat = true

/-- The error record is empty exactly while ERR is 0 (10_state.md R26, 60_exceptions.md R242). -/
abbrev State.ErrorRecordOk (s : State) : Prop :=
  (s.status.err = false → s.status.errm = false ∧ s.status.errcode = .none ∧ s.errcmd = 0) ∧
  (s.status.err = true → s.status.errcode ≠ .none)

/-- DONE is 0 while the block is busy (40_system.md R111, R112; 70_reset_and_hazards.md R271). -/
abbrev State.BusyNotDone (s : State) : Prop := s.pend ≠ .none → s.status.done = false

/-- The invariant of the block. -/
abbrev State.Inv (s : State) : Prop :=
  s.caps.Ok ∧ s.StorageOk ∧ s.FieldValid ∧ s.ErrorRecordOk ∧ s.BusyNotDone

/-- The block keeps its invariant and has an active field (10_state.md R30). -/
abbrev State.Configured (s : State) : Prop := s.Inv ∧ s.status.cfgValid = true

/-- The code length is within its bounds, the condition of `CheckN` (40_system.md R115). -/
abbrev State.LengthOk (s : State) : Prop :=
  1 ≤ s.cfgN.toNat ∧ s.cfgN.toNat ≤ s.caps.nmax ∧ s.cfgN.toNat ≤ 2 ^ s.field.m

/-- Every coefficient of the polynomial is a field element (42_polynomial.md R150). -/
abbrev State.PolyInField (s : State) (A : Poly) : Prop := ∀ c ∈ A, c < 2 ^ s.field.m

/-- Every support entry in use is a field element (41_field.md R130). -/
abbrev State.SupportInField (s : State) : Prop :=
  ∀ j, j < s.cfgN.toNat → Memory.read s.sup j < 2 ^ s.field.m

/-- `g` is a Goppa polynomial for the support in use: the conditions of `GoppaPre` (44_goppa.md R210). -/
abbrev State.GoppaOk (s : State) (g : Poly) : Prop :=
  s.PolyInField g ∧ s.SupportInField ∧ 1 ≤ deg g ∧
  ∀ j, j < s.cfgN.toNat → peval s.field g (Memory.read s.sup j) ≠ 0

/-- The matrix is a received vector, `1 × N` (44_goppa.md R217). -/
abbrev State.Received (s : State) (r : Mat) : Prop := r.rows = 1 ∧ r.cols = s.cfgN.toNat

/-! ## Safe runs -/

/-- A run of `n` steps that stops nowhere. -/
def RunsOn (s : State) (n : Nat) : Prop := ∃ t, Sys2Proof.core.run n s = .next t

/-! ## Frames -/

/-- The `E` registers a command writes (10_state.md R40). -/
def eDest : Instr → List EReg
  | .emov a _ | .finv a _ | .fsqrt a _ => [a]
  | .fadd a _ _ | .fmul a _ _ | .fpow a _ _ | .peval a _ _ => [a]
  | _ => []

/-- The `P` registers a command writes (30_encoding.md R96). -/
def pDest : Instr → List PReg
  | .pmov a _ => [a]
  | .padd a _ _ | .pmul a _ _ | .pmod a _ _ | .pinvmod a _ _ | .psqrtmod a _ _ => [a]
  | .pdivmod a b _ _ | .latred a b _ _ | .psplit a b _ => [a, b]
  | .synd a _ _ => [a]
  | .patterson _ _ _ d => [d]
  | _ => []

/-- The `M` registers a command writes (30_encoding.md R96). -/
def mDest : Instr → List MReg
  | .mmov a _ | .mtrans a _ | .mrowred a _ | .mnull a _ | .minv a _ | .proots a _ | .pcheck a _ => [a]
  | .mmul a _ _ | .madd a _ _ | .mhcat a _ _ => [a]
  | .patterson a _ _ _ => [a]
  | .decode a _ _ _ e => [a, e]
  | _ => []

/-- The commands that write RES_COUNT (10_state.md R34). -/
def writesCount : Instr → Bool
  | .proots _ _ | .patterson _ _ _ _ | .decode _ _ _ _ _ => true
  | _ => false

/-- The commands that write RES_RANK (10_state.md R35). -/
def writesRank : Instr → Bool
  | .mrowred _ _ | .mnull _ _ | .decode _ _ _ _ _ => true
  | _ => false

/-- The commands that write RES_FLAG (10_state.md R36). -/
def writesFlag : Instr → Bool
  | .mdet _ | .pirred _ => true
  | _ => false

/-- `t` is `s` but for DONE = 1 and PEND = NONE, the end of every completion (40_system.md R112). -/
abbrev OnlyCompletes (s t : State) : Prop :=
  t = { s with pend := .none, status := { s.status with done := true } }

/-- `t` is `s` completed, with `E[a]` as in `t`. -/
abbrev OnlyE (a : EReg) (s t : State) : Prop := OnlyCompletes { s with e := s.e.set a t.e[a] } t

/-- `t` is `s` completed, with `P[a]` as in `t`. -/
abbrev OnlyP (a : PReg) (s t : State) : Prop := OnlyCompletes { s with p := s.p.set a t.p[a] } t

/-- `t` is `s` completed, with `P[a]` and `P[b]` as in `t`. -/
abbrev OnlyPP (a b : PReg) (s t : State) : Prop :=
  OnlyCompletes { s with p := (s.p.set a t.p[a]).set b t.p[b] } t

/-- `t` is `s` completed, with `M[a]` as in `t`. -/
abbrev OnlyM (a : MReg) (s t : State) : Prop := OnlyCompletes { s with m := s.m.set a t.m[a] } t

/-- `DIDX` after a DDATA access while idle (20_memory.md R71). -/
abbrev State.nextDidx (s : State) : Word := if s.dsel.autoinc then s.didx + 1 else s.didx

/-- The XOR of `f 0` to `f (n−1)`. -/
def xorSum (n : Nat) (f : Nat → Nat) : Nat := (List.range n).foldl (fun acc k => acc ^^^ f k) 0

/-- The XOR of the bits `f 0` to `f (n−1)`. -/
def xorBits (n : Nat) (f : Nat → Bool) : Bool := (List.range n).foldl (fun acc k => acc ^^ f k) false

/-- `a^e` by the recursion of 41_field.md R134. -/
def powByRule (F : Gf) (a : Nat) : Nat → Nat
  | 0 => 1
  | e + 1 => gmul F (powByRule F a e) a

/-- The error record after a failure with code `k` of the word `w` (60_exceptions.md R242). -/
def failureRecord (s : State) (k : ErrCode) (w : Word) : State :=
  { s with
    status :=
      { s.status with
        done := true
        err := true
        errm := s.status.errm || s.status.err
        errcode := if s.status.err then s.status.errcode else k }
    errcmd := if s.status.err then s.errcmd else w
    pend := .none }

/-- `exec i s` fails with code `k`: nothing is written but the error record (60_exceptions.md R241, R242). -/
abbrev FailsWith (i : Instr) (s : State) (k : ErrCode) : Prop := exec i s = .next (failureRecord s k (encode i))

/-- Over the field `F`: an irreducible polynomial, by the definition of 42_polynomial.md R167. -/
def IrreducibleOver (F : Gf) (A : Poly) : Prop :=
  1 ≤ deg A ∧
  ¬ ∃ U V : Poly, allInF F U = true ∧ allInF F V = true ∧ 1 ≤ deg U ∧ 1 ≤ deg V ∧ pmul F U V = norm A

/-- Over GF(2): an irreducible binary polynomial, by the definition of 40_system.md R114. -/
def IrreducibleBinary (ff : Nat) : Prop :=
  ¬ ∃ u v : Nat, 2 ≤ u ∧ 2 ≤ v ∧ clmul (v.log2 + 1) u v = ff

end Sys2Proof.Machine
end

