-- ==== Sys2Proof/Certificates/Slice0/Obligations.lean ====
section
/-! DEFINITION. The statements for the provers, from the numbered rules of spec/. -/

open Sys2Proof Sys2Proof.Machine

/-! ## Command encoding (30_encoding.md) -/

/-- R91, R96, R97: decoding the word of any command gives it back, every operand at every value. -/
def Obligations.EncodedCommandsDecode : Prop :=
  ∀ i : Instr, decodeWord (encode i) = .ok i

/-- R93, R97: a word that decodes is the word of the command it decodes to; no two words have one meaning. -/
def Obligations.DecodedWordsReencode : Prop :=
  ∀ (w : Word) (i : Instr), decodeWord w = .ok i → encode i = w

/-- R61: the four byte lanes of a command's word, lowest address first, decode to the command; the bytes after them are left. -/
def Obligations.ByteLanesCarryCommands : Prop :=
  ∀ (i : Instr) (rest : List Byte), decodeBytes (encodeBytes i ++ rest) = .ok (i, rest)

/-- R97 and the examples of 30_encoding.md and 95_test_vectors.md: words written out bit by bit. -/
def Obligations.WrittenOutWordsDecode : Prop :=
  decodeWord 0b00000000000000000000000000000001#32 = .ok .config ∧
  decodeWord 0b00000000000000110010000100010001#32 = .ok (.fmul 1 2 3) ∧
  decodeWord 0b00000000010000110010000100100010#32 = .ok (.pdivmod 1 2 3 4) ∧
  decodeWord 0b00000000000000100001000001000000#32 = .ok (.mmul 0 1 2) ∧
  decodeWord 0b00000011001000000001000001100100#32 = .ok (.decode 0 1 0 2 3) ∧
  decodeWord 0b00000000000000000000100000000101#32 = .error .illegalField ∧
  decodeWord 0b00000000000000000000000000000110#32 = .error .illegalOpcode

/-- R93, R94: a pending word that is not the word of a well-formed command fails, with ILLEGAL_OPCODE exactly when its opcode byte is
none of R96's and ILLEGAL_FIELD otherwise, and changes nothing but the error record. -/
def Obligations.IllegalWordsFail : Prop :=
  ∀ (s : State) (w : Word) (zs : Bool), s.pend = .run w zs →
    (¬ ∃ i : Instr, i.wellFormed = true ∧ encode i = w) →
    ((∀ o : Opcode, o.byte ≠ w.extractLsb' 0 8) → engineMove s = .next (failureRecord s .illegalOpcode w)) ∧
    ((∃ o : Opcode, o.byte = w.extractLsb' 0 8) → engineMove s = .next (failureRecord s .illegalField w))

/-! ## The command cycle (40_system.md, 60_exceptions.md) -/

/-- R112: when the pending word decodes, the engine's step is the completion of that command, whether the engine moves by an event or
because no event is to come; the event is consumed and nothing else is added. The last clause is the same for the word placed by
`withFetchWord`. -/
def Obligations.StepRunsDecodedCommand : Prop :=
  (∀ (s : State) (w : Word) (zs : Bool) (i : Instr), s.pend = .run w zs → decodeWord w = .ok i →
    (s.inbox = [] → step s = exec i s) ∧
    (∀ rest, s.inbox = .engineTurn :: rest → step s = exec i { s with inbox := rest })) ∧
  (∀ (s : State) (w : Nat) (i : Instr), decodeTableWord 32 w = some i →
    step (s.withFetchWord 32 w) = exec i (s.issue (tableWord 32 w)))

/-- R112, R241, R242, R282: every command completes from every state: idle, DONE set, and either the error record is as before, or the
command failed with one code and NOTHING but the record changed. -/
def Obligations.EveryCommandCompletesPrecisely : Prop :=
  ∀ (i : Instr) (s : State), ∃ t, exec i s = .next t ∧ t.pend = .none ∧ t.status.done = true ∧
    ((t.status.err = s.status.err ∧ t.status.errm = s.status.errm ∧ t.status.errcode = s.status.errcode ∧
        t.errcmd = s.errcmd) ∨
      ∃ k, k ≠ .none ∧ t = failureRecord s k (encode i))

/-- R34-R36, R40-R43, R46: the frame of every command at once. A register that is no destination of the command is unchanged, the
result registers change only where R34-R36 say so, and no command writes a control register, OVR, AERR, or the model's own fields. -/
def Obligations.CommandsWriteOnlyTheirDestinations : Prop :=
  ∀ (i : Instr) (s t : State), exec i s = .next t →
    (∀ r : EReg, r ∉ eDest i → t.e[r] = s.e[r]) ∧
    (∀ r : PReg, r ∉ pDest i → t.p[r] = s.p[r]) ∧
    (∀ r : MReg, r ∉ mDest i → t.m[r] = s.m[r]) ∧
    (i ≠ .supinit → t.sup = s.sup) ∧
    (writesCount i = false → t.resCount = s.resCount) ∧
    (writesRank i = false → t.resRank = s.resRank) ∧
    (writesFlag i = false → t.resFlag = s.resFlag) ∧
    (i ≠ .config → t.status.cfgValid = s.status.cfgValid) ∧
    t.status.ovr = s.status.ovr ∧ t.status.aerr = s.status.aerr ∧
    t.caps = s.caps ∧ t.ctrl = s.ctrl ∧ t.cfgM = s.cfgM ∧ t.cfgFmod = s.cfgFmod ∧ t.cfgN = s.cfgN ∧
    t.arg0 = s.arg0 ∧ t.dsel = s.dsel ∧ t.didx = s.didx ∧ t.inbox = s.inbox ∧ t.rdata = s.rdata

/-- R112, R118: a legal command that needs an active field fails NOT_CONFIGURED without one. R93: a command with two destinations of
one kind and one number fails ILLEGAL_FIELD, with or without an active field. -/
def Obligations.ChecksBeforeThePseudocode : Prop :=
  (∀ (i : Instr) (s : State), needsField i = true → i.wellFormed = true → s.status.cfgValid = false →
    FailsWith i s .notConfigured) ∧
  (∀ (s : State) (a c d : PReg) (m b k : MReg),
    FailsWith (.pdivmod a a c d) s .illegalField ∧ FailsWith (.psplit a a c) s .illegalField ∧
    FailsWith (.latred a a c d) s .illegalField ∧ FailsWith (.decode m b c k m) s .illegalField)

/-- R242, "Only the host clears ERR, ERRM, ERRCODE and ERRCMD": a step keeps a recorded error unless it is a reset or a host write of
STATUS with bit 2 set. -/
def Obligations.ErrorRecordIsSticky : Prop :=
  ∀ s t : State, step s = .next t → s.status.err = true →
    (t.status.err = true ∧ t.status.errcode = s.status.errcode ∧ t.errcmd = s.errcmd ∧
      (s.status.errm = true → t.status.errm = true)) ∨
    (∃ rest, s.inbox = .resetInput :: rest) ∨
    (∃ v rest, s.inbox = .access { off := 0x14, width := .word, kind := .write v } :: rest ∧ v.getLsbD 0 = true) ∨
    (∃ v rest, s.inbox = .access { off := 0x18, width := .word, kind := .write v } :: rest ∧ v.getLsbD 2 = true)

/-! ## Whole-machine rules -/

/-- The invariant (R6, R26, R30, R40-R43) holds right after reset, in every build that R6 allows. -/
def Obligations.ResetMeetsInvariant : Prop :=
  State.reset.Inv ∧ ∀ b : Build, b.Ok → (State.resetOf b).Inv

/-- Every step keeps the invariant: stored elements within MMAX bits, polynomials and the support canonical and within their sizes,
matrices within their dimensions (R40-R43), an active field valid (R30), the error record consistent (R242), DONE = 0 while busy. -/
def Obligations.EveryStepKeepsInvariant : Prop :=
  ∀ s t : State, s.Inv → step s = .next t → t.Inv

/-- R282: every run of the block goes on, and after the events to come and one engine move it is idle. -/
def Obligations.EveryRunBecomesIdle : Prop :=
  ∀ s : State, (∀ n, RunsOn s n) ∧
    ∃ t, Sys2Proof.core.run (s.inbox.length + 1) s = .next t ∧ t.pend = .none ∧ t.inbox = []

/-- R30: "only a successful CONFIG sets CFG_VALID". -/
def Obligations.OnlyConfigSetsCfgValid : Prop :=
  ∀ s t : State, step s = .next t → s.status.cfgValid = false → t.status.cfgValid = true →
    ∃ w zs, s.pend = .run w zs ∧ decodeWord w = .ok .config ∧
      fieldOk s.caps.mmax s.cfgM.toNat s.cfgFmod.toNat = true

/-- R223, R282, R286: the completion of a pending command neither reads nor writes CTRL, DSEL, DIDX, the events to come or the last
read value: in two states that differ only there it does the same. -/
def Obligations.PendingCommandIgnoresHostSetup : Prop :=
  ∀ (s t : State) (w : Word) (zs : Bool) (c : Ctrl) (d : Dsel) (x : Word) (l : List HostEvent) (r : Word),
    s.pend = .run w zs → engineMove s = .next t →
    engineMove { s with ctrl := c, dsel := d, didx := x, inbox := l, rdata := r } =
      .next { t with ctrl := c, dsel := d, didx := x, inbox := l, rdata := r }

/-- R283-R287: while busy no host access but a soft reset changes what the pending command reads, or the results of earlier ones. -/
def Obligations.BusyAccessesKeepCommandInputs : Prop :=
  ∀ (s : State) (a : Access), s.pend ≠ .none →
    (¬ ∃ v : Word, a = { off := 0x14, width := .word, kind := .write v } ∧ v.getLsbD 0 = true) →
    (hostAccess s a).pend = s.pend ∧ (hostAccess s a).e = s.e ∧ (hostAccess s a).p = s.p ∧
    (hostAccess s a).m = s.m ∧ (hostAccess s a).sup = s.sup ∧ (hostAccess s a).cfgM = s.cfgM ∧
    (hostAccess s a).cfgFmod = s.cfgFmod ∧ (hostAccess s a).cfgN = s.cfgN ∧ (hostAccess s a).arg0 = s.arg0 ∧
    (hostAccess s a).status.cfgValid = s.status.cfgValid ∧ (hostAccess s a).resCount = s.resCount ∧
    (hostAccess s a).resRank = s.resRank ∧ (hostAccess s a).resFlag = s.resFlag

/-! ## Host accesses (10_state.md, 20_memory.md, 70_reset_and_hazards.md) -/

/-- R111, R283: a CMD write issues the word while idle (ZS_PASS sampled, DONE cleared), and is dropped with OVR while busy. -/
def Obligations.CmdWriteIssuesOrIsDropped : Prop :=
  ∀ (s : State) (v : Word),
    (s.pend = .none → hostAccess s { off := 0x1C, width := .word, kind := .write v } =
      { s with pend := .run v s.ctrl.zsPass, status := { s.status with done := false } }) ∧
    (s.pend ≠ .none → hostAccess s { off := 0x1C, width := .word, kind := .write v } =
      { s with status := { s.status with ovr := true } })

/-- R284: writes of CFG_M, CFG_FMOD, CFG_N and ARG0 while busy are ignored and set OVR. R27-R29, R33: the same writes while idle store
the value, and a write of CFG_M or CFG_FMOD ends the active field. -/
def Obligations.ConfigAndArgumentWrites : Prop :=
  ∀ (s : State) (v : Word),
    (s.pend ≠ .none → ∀ off ∈ [0x24#8, 0x28#8, 0x2C#8, 0x30#8],
      hostAccess s { off := off, width := .word, kind := .write v } =
        { s with status := { s.status with ovr := true } }) ∧
    (s.pend = .none →
      hostAccess s { off := 0x24, width := .word, kind := .write v } =
        { s with cfgM := v.extractLsb' 0 5, status := { s.status with cfgValid := false } } ∧
      hostAccess s { off := 0x28, width := .word, kind := .write v } =
        { s with cfgFmod := v, status := { s.status with cfgValid := false } } ∧
      hostAccess s { off := 0x2C, width := .word, kind := .write v } = { s with cfgN := v } ∧
      hostAccess s { off := 0x30, width := .word, kind := .write v } = { s with arg0 := v })

/-- R285: a DDATA read while busy returns 0, a write changes nothing, both set OVR and leave AERR and DIDX; DSEL and DIDX writes are
accepted. R37, R38: so they are while idle. R21, R47, R287: a write of a read-only register or a reserved offset changes nothing, idle
or busy. -/
def Obligations.DataPortWhileBusy : Prop :=
  ∀ (s : State) (v : Word),
    (s.pend ≠ .none →
      hostAccess s { off := 0x48, width := .word, kind := .read } =
        { s with status := { s.status with ovr := true }, rdata := 0 } ∧
      hostAccess s { off := 0x48, width := .word, kind := .write v } =
        { s with status := { s.status with ovr := true } }) ∧
    hostAccess s { off := 0x44, width := .word, kind := .write v } = { s with didx := v } ∧
    (∃ d : Dsel, hostAccess s { off := 0x40, width := .word, kind := .write v } = { s with dsel := d } ∧
      d.space = v.extractLsb' 0 3 ∧ d.reg = v.extractLsb' 8 4 ∧ d.autoinc = v.getLsbD 16) ∧
    ∀ off : BitVec 8, off.toNat % 4 = 0 →
      off ∈ [0x00#8, 0x04#8, 0x08#8, 0x0C#8, 0x10#8, 0x20#8, 0x34#8, 0x38#8, 0x3C#8] ∨ 0x4C ≤ off.toNat →
      hostAccess s { off := off, width := .word, kind := .write v } = s

/-- R62: an access that is not 32 bits wide at a multiple of 4 reads 0 or is ignored, and sets AERR, busy or not. -/
def Obligations.UndefinedAccessesOnlySetAerr : Prop :=
  ∀ (s : State) (a : Access), (a.width ≠ .word ∨ a.off.toNat % 4 ≠ 0) →
    (a.kind = .read → hostAccess s a = { s with status := { s.status with aerr := true }, rdata := 0 }) ∧
    (a.kind ≠ .read → hostAccess s a = { s with status := { s.status with aerr := true } })

/-- R26: the write-1-to-clear bits of STATUS; all other bits of the value are ignored, and BUSY does not matter. -/
def Obligations.StatusWriteClearsBits : Prop :=
  ∀ (s : State) (v : Word), hostAccess s { off := 0x18, width := .word, kind := .write v } =
    { s with
      status :=
        { s.status with
          done := s.status.done && !v.getLsbD 1
          err := s.status.err && !v.getLsbD 2
          errm := s.status.errm && !v.getLsbD 2
          ovr := s.status.ovr && !v.getLsbD 4
          aerr := s.status.aerr && !v.getLsbD 5
          errcode := if v.getLsbD 2 then .none else s.status.errcode }
      errcmd := if v.getLsbD 2 then 0 else s.errcmd }

/-- R72, R287: an aligned 32-bit read of any register but DDATA changes nothing but the value returned, busy or not. R21 to R38, R44,
R47, R240: that value, for every register and reserved offset (the CAP registers in a build that R6 allows, CAP1 where RMAX fits its
32 bits; see assumption 17). The value returned is held in the model's own field `rdata` (assumption 4). -/
def Obligations.RegisterReadsHaveNoSideEffect : Prop :=
  ∀ s : State,
    let val := fun off : BitVec 8 => (hostAccess s { off := off, width := .word, kind := .read }).rdata
    (∀ off : BitVec 8, off.toNat % 4 = 0 → off ≠ 0x48 →
      hostAccess s { off := off, width := .word, kind := .read } = { s with rdata := val off }) ∧
    val 0x00 = 0x47460001 ∧
    (s.caps.Ok → (val 0x04).toNat = s.caps.mmax + 2 ^ 16 * s.caps.pcap ∧
      (s.caps.rmax < 2 ^ 32 → (val 0x08).toNat = s.caps.rmax) ∧
      (val 0x0C).toNat = s.caps.cmax ∧ (val 0x10).toNat = s.caps.nmax) ∧
    ((val 0x14).getLsbD 0 = false ∧ (val 0x14).getLsbD 1 = s.ctrl.irqEn ∧ (val 0x14).getLsbD 2 = s.ctrl.zsPass ∧
      (val 0x14).extractLsb' 3 29 = 0) ∧
    (((val 0x18).getLsbD 0 = true ↔ s.pend ≠ .none) ∧ (val 0x18).getLsbD 1 = s.status.done ∧
      (val 0x18).getLsbD 2 = s.status.err ∧ (val 0x18).getLsbD 3 = s.status.errm ∧ (val 0x18).getLsbD 4 = s.status.ovr ∧
      (val 0x18).getLsbD 5 = s.status.aerr ∧ (val 0x18).getLsbD 6 = s.status.cfgValid ∧ (val 0x18).getLsbD 7 = false ∧
      ((val 0x18).extractLsb' 8 8 = match s.status.errcode with
        | .none => 0x00
        | .illegalOpcode => 0x01
        | .illegalField => 0x02
        | .notConfigured => 0x03
        | .badConfig => 0x04
        | .operandRange => 0x05
        | .divZero => 0x06
        | .notInvertible => 0x07
        | .singular => 0x08
        | .zeroSyndrome => 0x09
        | .decodeFailure => 0x0A
        | .dimMismatch => 0x0B
        | .capacity => 0x0C
        | .badLength => 0x0D
        | .badN => 0x0E
        | .goppaDegree => 0x0F
        | .badSupport => 0x10) ∧
      (val 0x18).extractLsb' 16 16 = 0) ∧
    val 0x1C = 0 ∧ val 0x20 = s.errcmd ∧ (val 0x24).toNat = s.cfgM.toNat ∧ val 0x28 = s.cfgFmod ∧ val 0x2C = s.cfgN ∧
    val 0x30 = s.arg0 ∧ val 0x34 = s.resCount ∧ val 0x38 = s.resRank ∧
    val 0x3C = (if s.resFlag then 1 else 0) ∧
    ((val 0x40).extractLsb' 0 3 = s.dsel.space ∧ (val 0x40).extractLsb' 3 5 = 0 ∧ (val 0x40).extractLsb' 8 4 = s.dsel.reg ∧
      (val 0x40).extractLsb' 12 4 = 0 ∧ (val 0x40).getLsbD 16 = s.dsel.autoinc ∧ (val 0x40).extractLsb' 17 15 = 0) ∧
    val 0x44 = s.didx ∧
    ∀ off : BitVec 8, off.toNat % 4 = 0 → 0x4C ≤ off.toNat → val off = 0

/-- R64, R65, R68: the spaces E, P and SUP while idle: a write stores the low MMAX bits at the selected element and nowhere else, and
a read returns the element; AUTOINC follows (R71). -/
def Obligations.PortStoresElements : Prop :=
  ∀ (s : State) (v : Word), s.Inv → s.pend = .none →
    let wr := hostAccess s { off := 0x48, width := .word, kind := .write v }
    let rd := hostAccess s { off := 0x48, width := .word, kind := .read }
    (∀ i : Fin 16, s.dsel.space = 0 → s.didx.toNat = i.val →
      wr = { s with e := s.e.set i (v.toNat % 2 ^ s.caps.mmax), didx := s.nextDidx } ∧
      rd = { s with rdata := rd.rdata, didx := s.nextDidx } ∧ rd.rdata.toNat = s.e[i]) ∧
    (∀ i : Fin 16, s.dsel.space = 1 → s.dsel.reg.toNat = i.val → s.didx.toNat < s.caps.pcap →
      wr = { s with p := s.p.set i wr.p[i], didx := s.nextDidx } ∧
      (∀ j, coeff wr.p[i] j = if j = s.didx.toNat then v.toNat % 2 ^ s.caps.mmax else coeff s.p[i] j) ∧
      rd = { s with rdata := rd.rdata, didx := s.nextDidx } ∧ rd.rdata.toNat = coeff s.p[i] s.didx.toNat) ∧
    (s.dsel.space = 4 → s.didx.toNat < s.caps.nmax →
      wr = { s with sup := wr.sup, didx := s.nextDidx } ∧
      (∀ j, Memory.read wr.sup j =
        if j = s.didx.toNat then v.toNat % 2 ^ s.caps.mmax else Memory.read s.sup j) ∧
      rd = { s with rdata := rd.rdata, didx := s.nextDidx } ∧ rd.rdata.toNat = Memory.read s.sup s.didx.toNat)

/-- R66: the space MDATA while idle: 32 bits of one row, column `32w + j` in bit `j`; a write changes exactly the bits of that word
that lie inside the dimensions; AUTOINC follows (R71). -/
def Obligations.PortStoresMatrixWords : Prop :=
  ∀ (s : State) (v : Word) (k : MReg), s.Inv → s.pend = .none → s.dsel.space = 2 →
    s.dsel.reg.toNat = k.val → s.didx.toNat < s.caps.rmax * s.caps.wpr →
    let wr := hostAccess s { off := 0x48, width := .word, kind := .write v }
    let rd := hostAccess s { off := 0x48, width := .word, kind := .read }
    let row := s.didx.toNat / s.caps.wpr
    let lo := 32 * (s.didx.toNat % s.caps.wpr)
    rd = { s with rdata := rd.rdata, didx := s.nextDidx } ∧
    (∀ j, j < 32 → rd.rdata.getLsbD j = s.m[k].bit row (lo + j)) ∧
    wr = { s with m := s.m.set k wr.m[k], didx := s.nextDidx } ∧ wr.m[k].rows = s.m[k].rows ∧ wr.m[k].cols = s.m[k].cols ∧
    ∀ i j, wr.m[k].bit i j =
      if i = row ∧ i < s.m[k].rows ∧ j < s.m[k].cols ∧ lo ≤ j ∧ j < lo + 32 then v.getLsbD (j - lo)
      else s.m[k].bit i j

/-- R67: the space MDIM while idle: the dimensions read and written; bits outside the new dimensions are 0, the others stay; a value
above the limit is ignored with AERR; AUTOINC follows (R71, assumption 13). -/
def Obligations.PortSetsMatrixDimensions : Prop :=
  ∀ (s : State) (v : Word) (k : MReg), s.Inv → s.pend = .none → s.dsel.space = 3 →
    s.dsel.reg.toNat = k.val →
    let wr := hostAccess s { off := 0x48, width := .word, kind := .write v }
    let rd := hostAccess s { off := 0x48, width := .word, kind := .read }
    (s.didx = 0 → rd = { s with rdata := rd.rdata, didx := s.nextDidx } ∧ rd.rdata.toNat = s.m[k].rows ∧
      (v.toNat ≤ s.caps.rmax → wr = { s with m := s.m.set k wr.m[k], didx := s.nextDidx } ∧ wr.m[k].rows = v.toNat ∧
        wr.m[k].cols = s.m[k].cols ∧ ∀ i j, wr.m[k].bit i j = (decide (i < v.toNat) && s.m[k].bit i j)) ∧
      (s.caps.rmax < v.toNat → wr = { s with status := { s.status with aerr := true }, didx := s.nextDidx })) ∧
    (s.didx = 1 → rd = { s with rdata := rd.rdata, didx := s.nextDidx } ∧ rd.rdata.toNat = s.m[k].cols ∧
      (v.toNat ≤ s.caps.cmax → wr = { s with m := s.m.set k wr.m[k], didx := s.nextDidx } ∧ wr.m[k].rows = s.m[k].rows ∧
        wr.m[k].cols = v.toNat ∧ ∀ i j, wr.m[k].bit i j = (decide (j < v.toNat) && s.m[k].bit i j)) ∧
      (s.caps.cmax < v.toNat → wr = { s with status := { s.status with aerr := true }, didx := s.nextDidx }))

/-- R69: the space PDEG while idle reads the degree, −1 as 0xFFFFFFFF for the zero polynomial; a write only sets AERR; AUTOINC follows
(R71, assumption 13). -/
def Obligations.PortReadsDegrees : Prop :=
  ∀ (s : State) (v : Word) (i : Fin 16), s.Inv → s.pend = .none → s.dsel.space = 5 →
    s.didx.toNat = i.val →
    hostAccess s { off := 0x48, width := .word, kind := .write v } =
      { s with status := { s.status with aerr := true }, didx := s.nextDidx } ∧
    ∃ r : Word, hostAccess s { off := 0x48, width := .word, kind := .read } = { s with rdata := r, didx := s.nextDidx } ∧
      (s.p[i] = [] → r = 0xFFFFFFFF) ∧
      (s.p[i] ≠ [] → coeff s.p[i] r.toNat ≠ 0 ∧ ∀ j, r.toNat < j → coeff s.p[i] j = 0)

/-- R70, R71: a DDATA access while idle outside every space's range returns 0 or changes no element, and sets AERR; it still performs
AUTOINC. -/
def Obligations.RejectedPortAccesses : Prop :=
  ∀ (s : State) (v : Word), s.pend = .none →
    (6 ≤ s.dsel.space.toNat ∨
      ((s.dsel.space = 0 ∨ s.dsel.space = 5) ∧ 16 ≤ s.didx.toNat) ∨
      (s.dsel.space = 1 ∧ s.caps.pcap ≤ s.didx.toNat) ∨
      ((s.dsel.space = 2 ∨ s.dsel.space = 3) ∧ 8 ≤ s.dsel.reg.toNat) ∨
      (s.dsel.space = 2 ∧ s.caps.rmax * s.caps.wpr ≤ s.didx.toNat) ∨
      (s.dsel.space = 3 ∧ 2 ≤ s.didx.toNat) ∨
      (s.dsel.space = 4 ∧ s.caps.nmax ≤ s.didx.toNat)) →
    hostAccess s { off := 0x48, width := .word, kind := .read } =
      { s with
        status := { s.status with aerr := true }
        rdata := 0
        didx := s.nextDidx } ∧
    hostAccess s { off := 0x48, width := .word, kind := .write v } =
      { s with
        status := { s.status with aerr := true }
        didx := s.nextDidx }

/-- R71: every DDATA access while idle, accepted or rejected, adds AUTOINC to DIDX modulo 2^32; none does while busy. -/
def Obligations.AutoincFollowsEveryIdleAccess : Prop :=
  ∀ (s : State) (k : AccessKind),
    (s.pend = .none → (hostAccess s { off := 0x48, width := .word, kind := k }).didx.toNat =
      if s.dsel.autoinc then (s.didx.toNat + 1) % 2 ^ 32 else s.didx.toNat) ∧
    (s.pend ≠ .none → (hostAccess s { off := 0x48, width := .word, kind := k }).didx = s.didx)

/-! ## Reset, initialisation, interrupt -/

/-- R48: the state right after reset: STATUS reads 0x00000001, ID and CAP0-CAP3 their constants, every other register 0, the files 0.
The build is the reference one (assumption 1). -/
def Obligations.ResetValues : Prop :=
  State.reset.pend = .init ∧
  readRegister State.reset 0x18 = 0x00000001 ∧ readRegister State.reset 0x00 = 0x47460001 ∧
  readRegister State.reset 0x04 = 0x01000010 ∧ readRegister State.reset 0x08 = 0x2000 ∧
  readRegister State.reset 0x0C = 0x2000 ∧ readRegister State.reset 0x10 = 0x2000 ∧
  (∀ k, k < 64 → k ≠ 0 → k ≠ 1 → k ≠ 2 → k ≠ 3 → k ≠ 4 → k ≠ 6 → readRegister State.reset (4 * k) = 0) ∧
  (∀ i : EReg, State.reset.e[i] = 0) ∧ (∀ (i : PReg) (j : Nat), coeff State.reset.p[i] j = 0) ∧
  (∀ i : MReg, State.reset.m[i].rows = 0 ∧ State.reset.m[i].cols = 0 ∧
    ∀ r c, State.reset.m[i].bit r c = false) ∧
  (∀ j, Memory.read State.reset.sup j = 0) ∧ State.reset.irq = false

/-- R25, R270, R271: the reset input and a CTRL write with bit 0 set do one reset, busy or not: a pending command is discarded with no
DONE and no ERR, every register and file takes its reset value, and only the build, the events to come and the last read value (the
model's own, assumptions 2 and 4) stay. -/
def Obligations.ResetClearsTheBlock : Prop :=
  ∀ (s : State) (v : Word) (rest : List HostEvent), v.getLsbD 0 = true →
    let t := { State.resetOf s.caps with inbox := rest, rdata := s.rdata }
    (s.inbox = .resetInput :: rest → step s = .next t) ∧
    (s.inbox = .access { off := 0x14, width := .word, kind := .write v } :: rest → step s = .next t) ∧
    t.pend = .init ∧ t.status.done = false ∧ t.status.err = false ∧ t.status.cfgValid = false ∧
    t.ctrl.irqEn = false ∧ t.ctrl.zsPass = false ∧ t.errcmd = 0 ∧ t.cfgM = 0 ∧ t.cfgFmod = 0 ∧ t.cfgN = 0 ∧
    (∀ i : EReg, t.e[i] = 0) ∧ (∀ i : PReg, t.p[i] = []) ∧ (∀ i : MReg, t.m[i] = { cols := 0, row := [] }) ∧ t.sup = []

/-- R272: the end of the initialisation makes the block idle and changes nothing else, whether the engine moves by an event or because
none is to come. -/
def Obligations.InitialisationEnds : Prop :=
  ∀ s : State, s.pend = .init →
    (s.inbox = [] → step s = .next { s with pend := .none }) ∧
    ∀ rest, s.inbox = .engineTurn :: rest → step s = .next { s with pend := .none, inbox := rest }

/-- R250: IRQ is IRQ_EN and one of DONE and ERR. It rises at the completion of every command while enabled and when the host sets
IRQ_EN while DONE or ERR is 1, and is low after a STATUS write that clears both sources, a CTRL write that clears IRQ_EN, or a reset.
R25, R286: a CTRL write with bit 0 = 0 stores bit 1 in IRQ_EN and bit 2 in ZS_PASS and changes nothing else, idle or busy. -/
def Obligations.InterruptFollowsCompletion : Prop :=
  (∀ s : State, s.irq = true ↔ s.ctrl.irqEn = true ∧ (s.status.done = true ∨ s.status.err = true)) ∧
  (∀ (i : Instr) (s t : State), s.ctrl.irqEn = true → exec i s = .next t → t.irq = true) ∧
  (∀ (s : State) (v : Word), v.getLsbD 0 = false →
    hostAccess s { off := 0x14, width := .word, kind := .write v } =
      { s with ctrl := { irqEn := v.getLsbD 1, zsPass := v.getLsbD 2 } }) ∧
  (∀ (s : State) (v : Word), v.getLsbD 0 = false → v.getLsbD 1 = true → (s.status.done = true ∨ s.status.err = true) →
    (hostAccess s { off := 0x14, width := .word, kind := .write v }).irq = true) ∧
  (∀ (s : State) (v : Word), v.getLsbD 1 = true → v.getLsbD 2 = true →
    (hostAccess s { off := 0x18, width := .word, kind := .write v }).irq = false) ∧
  (∀ (s : State) (v : Word), v.getLsbD 1 = false →
    (hostAccess s { off := 0x14, width := .word, kind := .write v }).irq = false) ∧
  (∀ s : State, s.resetBlock.irq = false)

/-! ## System commands (40_system.md) -/

/-- R113, R117: NOP does nothing; EMOV, PMOV and MMOV copy the whole register, with no check; nothing else changes. -/
def Obligations.NopAndMovesComplete : Prop :=
  ∀ s : State,
    (∃ t, exec .nop s = .next t ∧ OnlyCompletes s t) ∧
    (∀ a b : EReg, ∃ t, exec (.emov a b) s = .next t ∧ t.e[a] = s.e[b] ∧ OnlyE a s t) ∧
    (∀ a b : PReg, ∃ t, exec (.pmov a b) s = .next t ∧ t.p[a] = s.p[b] ∧ OnlyP a s t) ∧
    (∀ a b : MReg, ∃ t, exec (.mmov a b) s = .next t ∧ t.m[a] = s.m[b] ∧ OnlyM a s t)

/-- R114: CONFIG accepts a degree from 1 to MMAX with a modulus of exactly that degree that no two binary polynomials of degree 1 or
more multiply to, and sets CFG_VALID; else it fails BAD_CONFIG, leaving CFG_VALID = 0. -/
def Obligations.ConfigChecksTheModulus : Prop :=
  ∀ s : State,
    let good := 1 ≤ s.cfgM.toNat ∧ s.cfgM.toNat ≤ s.caps.mmax ∧
      2 ^ s.cfgM.toNat ≤ s.cfgFmod.toNat ∧ s.cfgFmod.toNat < 2 ^ (s.cfgM.toNat + 1) ∧
      IrreducibleBinary s.cfgFmod.toNat
    (good → ∃ t, exec .config s = .next t ∧
      OnlyCompletes { s with status := { s.status with cfgValid := true } } t) ∧
    (¬ good → FailsWith .config s .badConfig ∧ (s.Inv → s.status.cfgValid = false))

/-- R115, R116: SUPINIT loads `SUP[i] = i` for `i < N` and leaves the rest; it fails BAD_N outside the bounds of N. -/
def Obligations.SupinitLoadsIdentity : Prop :=
  ∀ s : State, s.Configured →
    (s.LengthOk → ∃ t, exec .supinit s = .next t ∧ OnlyCompletes { s with sup := t.sup } t ∧
      ∀ i, Memory.read t.sup i = if i < s.cfgN.toNat then i else Memory.read s.sup i) ∧
    (¬ s.LengthOk → FailsWith .supinit s .badN)

/-! ## Field unit (41_field.md) -/

/-- R131, R132, R137, R138: FADD writes the XOR; FMUL writes the remainder of the binary polynomial product modulo `f`, the one value
below `2^m` that differs from the product by a multiple of `f`. An operand out of range fails OPERAND_RANGE. -/
def Obligations.FieldAddAndMultiply : Prop :=
  ∀ (s : State) (a b c : EReg), s.Configured →
    let x := s.e[b]
    let y := s.e[c]
    (x < 2 ^ s.field.m ∧ y < 2 ^ s.field.m →
      (∃ t, exec (.fadd a b c) s = .next t ∧ t.e[a] = x ^^^ y ∧ OnlyE a s t) ∧
      (∃ t, exec (.fmul a b c) s = .next t ∧ OnlyE a s t ∧ t.e[a] < 2 ^ s.field.m ∧
        ∃ q, clmul s.field.m x y = clmul (s.field.m + 1) q s.field.f ^^^ t.e[a])) ∧
    (¬ (x < 2 ^ s.field.m ∧ y < 2 ^ s.field.m) →
      FailsWith (.fadd a b c) s .operandRange ∧ FailsWith (.fmul a b c) s .operandRange)

/-- R133-R135, R139-R141: FINV writes the inverse, FPOW the power by the recursion of R134 (the whole stored exponent), FSQRT the
square root; FINV of 0 fails DIV_ZERO, an element out of range OPERAND_RANGE. -/
def Obligations.FieldInversePowerRoot : Prop :=
  ∀ (s : State) (a b c : EReg), s.Configured →
    let x := s.e[b]
    (x < 2 ^ s.field.m →
      (x ≠ 0 → ∃ t, exec (.finv a b) s = .next t ∧ OnlyE a s t ∧ t.e[a] < 2 ^ s.field.m ∧
        gmul s.field x t.e[a] = 1) ∧
      (x = 0 → FailsWith (.finv a b) s .divZero) ∧
      (∃ t, exec (.fpow a b c) s = .next t ∧ OnlyE a s t ∧ t.e[a] = powByRule s.field x s.e[c]) ∧
      (∃ t, exec (.fsqrt a b) s = .next t ∧ OnlyE a s t ∧ t.e[a] < 2 ^ s.field.m ∧
        gmul s.field t.e[a] t.e[a] = x)) ∧
    (2 ^ s.field.m ≤ x → FailsWith (.finv a b) s .operandRange ∧ FailsWith (.fpow a b c) s .operandRange ∧
      FailsWith (.fsqrt a b) s .operandRange)

/-- R136: the field laws the spec states; and those R132 adds from general knowledge (its bracketed sentence, a consequence, not a
rule): multiplication of field elements stays in the field, is commutative and associative, distributes over addition, has identity 1.
-/
def Obligations.FieldLaws : Prop :=
  ∀ (F : Gf) (mmax a b c : Nat), fieldOk mmax F.m F.f = true → a < 2 ^ F.m →
    (gadd a a = 0 ∧ (a ≠ 0 → gmul F a (ginv F a) = 1) ∧ (a ≠ 0 → gpow F a (2 ^ F.m - 1) = 1) ∧
      gmul F a 1 = a ∧ gmul F a 0 = 0) ∧
    (b < 2 ^ F.m → c < 2 ^ F.m →
      gmul F a b < 2 ^ F.m ∧ gmul F a b = gmul F b a ∧ gmul F (gmul F a b) c = gmul F a (gmul F b c) ∧
      gmul F a (gadd b c) = gadd (gmul F a b) (gmul F a c))

/-! ## Polynomial unit (42_polynomial.md) -/

/-- R151, R152, R158, R159: PADD and PMUL coefficient by coefficient; a product whose degree reaches PCAP fails CAPACITY, and degrees
add because the field has no zero divisors. -/
def Obligations.PolynomialSumAndProduct : Prop :=
  ∀ (s : State) (a b c : PReg), s.Configured → s.PolyInField s.p[b] → s.PolyInField s.p[c] →
    let fits := s.p[b] = [] ∨ s.p[c] = [] ∨ deg s.p[b] + deg s.p[c] ≤ (s.caps.pcap : Int) - 1
    (∃ t, exec (.padd a b c) s = .next t ∧ OnlyP a s t ∧
      ∀ i, coeff t.p[a] i = coeff s.p[b] i ^^^ coeff s.p[c] i) ∧
    (fits → ∃ t, exec (.pmul a b c) s = .next t ∧ OnlyP a s t ∧
      ∀ k, coeff t.p[a] k =
        xorSum (k + 1) fun i => gmul s.field (coeff s.p[b] i) (coeff s.p[c] (k - i))) ∧
    (¬ fits → FailsWith (.pmul a b c) s .capacity)

/-- R153, R154, R160, R161: PDIVMOD writes quotient and remainder, PMOD the remainder, all over the field: the dividend is quotient
times divisor plus a remainder of smaller degree. A zero divisor fails DIV_ZERO. -/
def Obligations.PolynomialDivision : Prop :=
  ∀ (s : State) (a b c d : PReg), s.Configured → s.PolyInField s.p[c] → s.PolyInField s.p[d] → a ≠ b →
    (s.p[d] ≠ [] →
      (∃ t, exec (.pdivmod a b c d) s = .next t ∧ OnlyPP a b s t ∧ s.PolyInField t.p[a] ∧ s.PolyInField t.p[b] ∧
        padd (pmul s.field t.p[a] s.p[d]) t.p[b] = s.p[c] ∧ deg t.p[b] < deg s.p[d]) ∧
      (∃ t, exec (.pmod a c d) s = .next t ∧ OnlyP a s t ∧ s.PolyInField t.p[a] ∧ deg t.p[a] < deg s.p[d] ∧
        ∃ Q, allInF s.field Q = true ∧ padd (pmul s.field Q s.p[d]) t.p[a] = s.p[c])) ∧
    (s.p[d] = [] → FailsWith (.pdivmod a b c d) s .divZero ∧ FailsWith (.pmod a c d) s .divZero)

/-- R156, R162: PINVMOD writes the reduced inverse where one exists, fails NOT_INVERTIBLE where none does, DIV_ZERO for the zero
modulus, and writes 0 for a nonzero constant modulus. -/
def Obligations.PolynomialInverse : Prop :=
  ∀ (s : State) (a b c : PReg), s.Configured → s.PolyInField s.p[b] → s.PolyInField s.p[c] →
    let A := s.p[b]
    let G := s.p[c]
    let inverse := fun U : Poly => pmod s.field (pmul s.field U (pmod s.field A G)) G = [1]
    (1 ≤ deg G → (∃ U, allInF s.field U = true ∧ inverse U) →
      ∃ t, exec (.pinvmod a b c) s = .next t ∧ OnlyP a s t ∧ s.PolyInField t.p[a] ∧ deg t.p[a] < deg G ∧ inverse t.p[a]) ∧
    (1 ≤ deg G → (¬ ∃ U, allInF s.field U = true ∧ inverse U) → FailsWith (.pinvmod a b c) s .notInvertible) ∧
    (deg G = 0 → ∃ t, exec (.pinvmod a b c) s = .next t ∧ OnlyP a s t ∧ t.p[a] = []) ∧
    (G = [] → FailsWith (.pinvmod a b c) s .divZero)

/-- R157, R163: PSPLIT writes the square roots of the even and the odd coefficients, and the operand is `Ev² + x·Od²`. -/
def Obligations.PolynomialSplit : Prop :=
  ∀ (s : State) (a b c : PReg), s.Configured → s.PolyInField s.p[c] → a ≠ b →
    ∃ t, exec (.psplit a b c) s = .next t ∧ OnlyPP a b s t ∧
      (∀ i, coeff t.p[a] i < 2 ^ s.field.m ∧
        gmul s.field (coeff t.p[a] i) (coeff t.p[a] i) = coeff s.p[c] (2 * i)) ∧
      (∀ i, coeff t.p[b] i < 2 ^ s.field.m ∧
        gmul s.field (coeff t.p[b] i) (coeff t.p[b] i) = coeff s.p[c] (2 * i + 1)) ∧
      padd (pmul s.field t.p[a] t.p[a]) (pshift 1 (pmul s.field t.p[b] t.p[b])) = s.p[c]

/-- R164: PSQRTMOD completes for every nonzero modulus with the value of its pseudocode, below the modulus in degree (0 for a constant
one); for an irreducible modulus it is the square root. The zero modulus fails DIV_ZERO. -/
def Obligations.PolynomialSquareRoot : Prop :=
  ∀ (s : State) (a b c : PReg), s.Configured → s.PolyInField s.p[b] → s.PolyInField s.p[c] →
    (s.p[c] ≠ [] → ∃ t, exec (.psqrtmod a b c) s = .next t ∧ OnlyP a s t ∧ s.PolyInField t.p[a] ∧
      psqrtmod s.field s.p[b] s.p[c] = .ok t.p[a] ∧ deg t.p[a] < max (deg s.p[c]) 1 ∧
      (deg s.p[c] = 0 → t.p[a] = []) ∧
      (IrreducibleOver s.field s.p[c] →
        pmod s.field (pmul s.field t.p[a] t.p[a]) s.p[c] = pmod s.field s.p[b] s.p[c])) ∧
    (s.p[c] = [] → FailsWith (.psqrtmod a b c) s .divZero)

/-- R155, R165-R167: PEVAL writes the sum of `A_i · v^i`; PROOTS the `1 × N` vector of the positions where the polynomial vanishes,
with their number; PIRRED the irreducibility by the definition of R167. -/
def Obligations.PolynomialEvaluationRootsIrreducibility : Prop :=
  ∀ (s : State) (a : EReg) (b : PReg) (c : EReg) (k : MReg), s.Configured → s.PolyInField s.p[b] →
    (s.e[c] < 2 ^ s.field.m → ∃ t, exec (.peval a b c) s = .next t ∧ OnlyE a s t ∧
      t.e[a] = xorSum s.p[b].length fun i => gmul s.field (coeff s.p[b] i) (powByRule s.field s.e[c] i)) ∧
    (s.LengthOk → s.SupportInField → ∃ t, exec (.proots k b) s = .next t ∧
      OnlyCompletes { s with m := s.m.set k t.m[k], resCount := t.resCount } t ∧
      t.m[k].rows = 1 ∧ t.m[k].cols = s.cfgN.toNat ∧
      (∀ j, j < s.cfgN.toNat →
        t.m[k].bit 0 j = decide (peval s.field s.p[b] (Memory.read s.sup j) = 0)) ∧
      t.resCount.toNat = (List.range s.cfgN.toNat).countP fun j => t.m[k].bit 0 j) ∧
    (∃ t, exec (.pirred b) s = .next t ∧ OnlyCompletes { s with resFlag := t.resFlag } t ∧
      (t.resFlag = true ↔ IrreducibleOver s.field s.p[b]))

/-- R130, R150: the polynomial commands fail OPERAND_RANGE on any coefficient, element or used support entry that is not a field
element. R115, R166: PROOTS fails BAD_N outside the bounds of N, before any range check. -/
def Obligations.PolynomialOperandsOutOfRange : Prop :=
  ∀ (s : State) (a b c d : PReg) (x y : EReg) (k : MReg), s.Configured →
    (a ≠ b → ¬ s.PolyInField s.p[c] →
      FailsWith (.padd a c d) s .operandRange ∧ FailsWith (.padd a d c) s .operandRange ∧
      FailsWith (.pmul a c d) s .operandRange ∧ FailsWith (.pmul a d c) s .operandRange ∧
      FailsWith (.pdivmod a b c d) s .operandRange ∧ FailsWith (.pdivmod a b d c) s .operandRange ∧
      FailsWith (.pmod a c d) s .operandRange ∧ FailsWith (.pmod a d c) s .operandRange ∧
      FailsWith (.pinvmod a c d) s .operandRange ∧ FailsWith (.pinvmod a d c) s .operandRange ∧
      FailsWith (.psplit a b c) s .operandRange ∧
      FailsWith (.psqrtmod a c d) s .operandRange ∧ FailsWith (.psqrtmod a d c) s .operandRange ∧
      FailsWith (.peval x c y) s .operandRange ∧ FailsWith (.pirred c) s .operandRange) ∧
    (2 ^ s.field.m ≤ s.e[y] → FailsWith (.peval x c y) s .operandRange) ∧
    (s.LengthOk → ¬ s.PolyInField s.p[c] ∨ ¬ s.SupportInField → FailsWith (.proots k c) s .operandRange) ∧
    (¬ s.LengthOk → FailsWith (.proots k c) s .badN)

/-! ## Matrix unit (43_matrix.md) -/

/-- R182-R185: MMUL, MADD, MTRANS and MHCAT bit by bit. -/
def Obligations.MatrixProductSumTransposeConcatenation : Prop :=
  ∀ (s : State) (a b c : MReg), s.Inv →
    let A := s.m[b]
    let B := s.m[c]
    (A.cols = B.rows → ∃ t, exec (.mmul a b c) s = .next t ∧ OnlyM a s t ∧
      t.m[a].rows = A.rows ∧ t.m[a].cols = B.cols ∧
      ∀ i j, i < A.rows → j < B.cols → t.m[a].bit i j = xorBits A.cols fun k => A.bit i k && B.bit k j) ∧
    (A.rows = B.rows → A.cols = B.cols → ∃ t, exec (.madd a b c) s = .next t ∧ OnlyM a s t ∧
      t.m[a].rows = A.rows ∧ t.m[a].cols = A.cols ∧
      ∀ i j, i < A.rows → j < A.cols → t.m[a].bit i j = (A.bit i j ^^ B.bit i j)) ∧
    (A.cols ≤ s.caps.rmax → A.rows ≤ s.caps.cmax → ∃ t, exec (.mtrans a b) s = .next t ∧ OnlyM a s t ∧
      t.m[a].rows = A.cols ∧ t.m[a].cols = A.rows ∧
      ∀ i j, i < A.rows → j < A.cols → t.m[a].bit j i = A.bit i j) ∧
    (A.rows = B.rows → A.cols + B.cols ≤ s.caps.cmax → ∃ t, exec (.mhcat a b c) s = .next t ∧ OnlyM a s t ∧
      t.m[a].rows = A.rows ∧ t.m[a].cols = A.cols + B.cols ∧
      ∀ i j, i < A.rows → j < A.cols + B.cols →
        t.m[a].bit i j = if j < A.cols then A.bit i j else B.bit i (j - A.cols))

/-- R182-R190: the dimension and capacity failures of the matrix commands. -/
def Obligations.MatrixShapeFailures : Prop :=
  ∀ (s : State) (a b c : MReg),
    let A := s.m[b]
    let B := s.m[c]
    (A.cols ≠ B.rows → FailsWith (.mmul a b c) s .dimMismatch) ∧
    (A.rows ≠ B.rows ∨ A.cols ≠ B.cols → FailsWith (.madd a b c) s .dimMismatch) ∧
    (s.caps.rmax < A.cols ∨ s.caps.cmax < A.rows → FailsWith (.mtrans a b) s .capacity) ∧
    (A.rows ≠ B.rows → FailsWith (.mhcat a b c) s .dimMismatch) ∧
    (A.rows = B.rows → s.caps.cmax < A.cols + B.cols → FailsWith (.mhcat a b c) s .capacity) ∧
    (A.cols < s.arg0.toNat → FailsWith (.mrowred a b) s .dimMismatch) ∧
    (s.caps.rmax < A.cols - (rref A A.cols).rank → FailsWith (.mnull a b) s .capacity) ∧
    (A.rows ≠ A.cols → FailsWith (.minv a b) s .dimMismatch ∧ FailsWith (.mdet b) s .dimMismatch)

/-- R181: elimination on the first `n` columns gives the reduced row-echelon form there: the pivots increase, each pivot column has
its only 1 in its pivot row, a pivot row is 0 left of its pivot, the rows from the rank on are 0 in the first `n` columns, and the
rows span what the rows of `A` span. -/
def Obligations.RowReductionIsReduced : Prop :=
  ∀ (A : Mat) (n : Nat), n ≤ A.cols → (∀ r ∈ A.row, r < 2 ^ A.cols) →
    let R := rref A n
    R.row.length = A.rows ∧ R.rank = R.piv.length ∧ R.rank ≤ A.rows ∧ R.piv.Pairwise (· < ·) ∧ (∀ p ∈ R.piv, p < n) ∧
    (∀ i j, i < A.rows → j < R.rank → (R.row.getD i 0).testBit (R.piv.getD j 0) = decide (i = j)) ∧
    (∀ i j, i < R.rank → j < R.piv.getD i 0 → (R.row.getD i 0).testBit j = false) ∧
    (∀ i j, R.rank ≤ i → i < A.rows → j < n → (R.row.getD i 0).testBit j = false) ∧
    ∀ v, (∃ u, selectRows u A.row = v) ↔ ∃ u, selectRows u R.row = v

/-- R187: MROWRED with ARG0 not above the column count writes the reduced matrix of the same dimensions and its rank. -/
def Obligations.MrowredWritesReducedMatrix : Prop :=
  ∀ (s : State) (a b : MReg), s.Inv → s.arg0.toNat ≤ s.m[b].cols →
    ∃ t, exec (.mrowred a b) s = .next t ∧
      OnlyCompletes { s with m := s.m.set a t.m[a], resRank := t.resRank } t ∧
      t.m[a].cols = s.m[b].cols ∧ t.m[a].row = (rref s.m[b] s.arg0.toNat).row ∧
      t.resRank.toNat = (rref s.m[b] s.arg0.toNat).rank

/-- R186, R188: MNULL writes `c − rank` rows; the vectors orthogonal to every row of the operand are exactly the sums of its rows,
each in one way. -/
def Obligations.MnullWritesNullSpaceBasis : Prop :=
  ∀ (s : State) (a b : MReg), s.Inv →
    let A := s.m[b]
    A.cols - (rref A A.cols).rank ≤ s.caps.rmax →
    ∃ t, exec (.mnull a b) s = .next t ∧
      OnlyCompletes { s with m := s.m.set a t.m[a], resRank := t.resRank } t ∧
      t.resRank.toNat = (rref A A.cols).rank ∧ t.m[a].cols = A.cols ∧
      t.m[a].rows = A.cols - (rref A A.cols).rank ∧
      ∀ v, v < 2 ^ A.cols →
        ((∀ i, i < A.rows → (xorBits A.cols fun j => A.bit i j && v.testBit j) = false) ↔
          ∃! u, u < 2 ^ t.m[a].rows ∧ selectRows u t.m[a].row = v)

/-- R189, R190: a square matrix with an inverse: MINV writes it and MDET answers 1; without one MINV fails SINGULAR and MDET answers
0. -/
def Obligations.MinvAndMdetDecideInvertibility : Prop :=
  ∀ (s : State) (a b : MReg), s.Inv → s.m[b].rows = s.m[b].cols →
    let A := s.m[b]
    let invertible := ∃ B : Mat, B.rows = A.rows ∧ B.cols = A.rows ∧ matMul A B = matId A.rows
    (invertible → ∃ t, exec (.minv a b) s = .next t ∧ OnlyM a s t ∧ matMul A t.m[a] = matId A.rows) ∧
    (¬ invertible → FailsWith (.minv a b) s .singular) ∧
    ∃ t, exec (.mdet b) s = .next t ∧ OnlyCompletes { s with resFlag := t.resFlag } t ∧
      (t.resFlag = true ↔ invertible)

/-! ## Goppa unit (44_goppa.md) -/

/-- R213, R215: PCHECK writes the `(t·m) × N` parity-check matrix, bit `b` of `Hm[i][j]` at row `i·m + b`, column `j`; too many rows
fail CAPACITY. -/
def Obligations.PcheckWritesParityCheckMatrix : Prop :=
  ∀ (s : State) (a : MReg) (b : PReg), s.Configured → s.LengthOk → s.GoppaOk s.p[b] →
    let F := s.field
    let g := s.p[b]
    let t := (deg g).toNat
    (t * F.m ≤ s.caps.rmax → ∃ u, exec (.pcheck a b) s = .next u ∧ OnlyM a s u ∧
      u.m[a].rows = t * F.m ∧ u.m[a].cols = s.cfgN.toNat ∧
      ∀ i k j, i < t → k < F.m → j < s.cfgN.toNat →
        let α := Memory.read s.sup j
        u.m[a].bit (i * F.m + k) j =
          (xorSum (i + 1) fun l =>
            gmul F (gmul F (coeff g (t - i + l)) (powByRule F α l)) (ginv F (peval F g α))).testBit k) ∧
    (s.caps.rmax < t * F.m → FailsWith (.pcheck a b) s .capacity)

/-- R216, R217: SYND writes the sum of the inverses of `x + α_j` modulo `g` over the positions with a 1: a polynomial below `g` in
degree. A vector with no 1 gives 0, and setting one more bit `j` adds the inverse of `x + α_j`, which fixes the value for every
vector. -/
def Obligations.SyndWritesSyndrome : Prop :=
  ∀ (s : State) (a : PReg) (b : MReg) (c : PReg), s.Configured → s.LengthOk → s.GoppaOk s.p[c] →
    (s.Received s.m[b] → ∃ t, exec (.synd a b c) s = .next t ∧ OnlyP a s t ∧ s.PolyInField t.p[a] ∧
      synd s.field s.p[c] (s.m[b].rowAt 0) s.support = .ok t.p[a] ∧ deg t.p[a] < deg s.p[c] ∧
      (s.m[b].rowAt 0 = 0 → t.p[a] = [])) ∧
    ∀ v j, v < 2 ^ s.cfgN.toNat → j < s.cfgN.toNat → v.testBit j = false →
      ∃ S U, synd s.field s.p[c] v s.support = .ok S ∧
        synd s.field s.p[c] (v ^^^ 2 ^ j) s.support = .ok (padd S U) ∧
        s.PolyInField U ∧ deg U < deg s.p[c] ∧
        pmod s.field (pmul s.field U (norm [Memory.read s.sup j, 1])) s.p[c] = [1]

/-- A binary vector is orthogonal to every row of the parity-check matrix exactly when its syndrome is 0, for every Goppa polynomial
of degree 1 or more without a root in the support: the sentence of R214 that the spec marks "from general knowledge, not in source"
(K3 of 93_implementation_defined.md). -/
def Obligations.ParityCheckIsSyndrome : Prop :=
  ∀ (F : Gf) (mmax v : Nat) (g : Poly) (sup : List Nat), fieldOk mmax F.m F.f = true → allInF F g = true →
    allInF F sup = true → 1 ≤ deg g → (∀ α ∈ sup, peval F g α ≠ 0) → v < 2 ^ sup.length →
    (synd F g v sup = .ok [] ↔
      ∀ r ∈ (pcheckmat F g sup).row, (xorBits sup.length fun j => r.testBit j && v.testBit j) = false)

/-- R218, R219: LATRED writes a pair with `α ≡ β·τ (mod g)`, `2·deg α ≤ t`, `2·deg β + 1 ≤ t` and `β ≠ 0`; a constant `g` fails
GOPPA_DEGREE, a coefficient out of range OPERAND_RANGE. -/
def Obligations.LatredWritesShortPair : Prop :=
  ∀ (s : State) (a b c d : PReg), s.Configured → a ≠ b →
    (s.PolyInField s.p[c] → s.PolyInField s.p[d] →
      (1 ≤ deg s.p[d] → ∃ t, exec (.latred a b c d) s = .next t ∧ OnlyPP a b s t ∧
        s.PolyInField t.p[a] ∧ s.PolyInField t.p[b] ∧
        latred s.field s.p[c] s.p[d] = (t.p[a], t.p[b]) ∧
        pmod s.field (pmul s.field t.p[b] s.p[c]) s.p[d] = pmod s.field t.p[a] s.p[d] ∧
        2 * deg t.p[a] ≤ deg s.p[d] ∧ 2 * deg t.p[b] + 1 ≤ deg s.p[d] ∧ t.p[b] ≠ []) ∧
      (deg s.p[d] < 1 → FailsWith (.latred a b c d) s .goppaDegree)) ∧
    (¬ s.PolyInField s.p[c] ∨ ¬ s.PolyInField s.p[d] → FailsWith (.latred a b c d) s .operandRange)

/-- R220, R222, R223, R226: PATTERSON and DECODE on a zero syndrome: with the sampled ZS_PASS = 0 they fail ZERO_SYNDROME, with 1 they
return the vector unchanged with count 0 (PATTERSON also `σ = 1`). -/
def Obligations.ZeroSyndromePolicy : Prop :=
  ∀ (s : State) (a b : MReg) (c d : PReg) (k e : MReg) (w : Word) (zs : Bool), s.Configured → s.LengthOk →
    s.Received s.m[b] → s.GoppaOk s.p[c] → s.pend = .run w zs →
    synd s.field s.p[c] (s.m[b].rowAt 0) s.support = .ok [] →
    (zs = false → FailsWith (.patterson a b c d) s .zeroSyndrome) ∧
    (zs = true → ∃ t, exec (.patterson a b c d) s = .next t ∧
      OnlyCompletes { s with m := s.m.set a s.m[b], p := s.p.set d [1], resCount := 0 } t) ∧
    (a ≠ e → s.m[k].cols = s.cfgN.toNat → s.m[k].rows ≤ s.caps.cmax →
      (zs = false → FailsWith (.decode a b c k e) s .zeroSyndrome) ∧
      (zs = true → ∃ t, exec (.decode a b c k e) s = .next t ∧ t.m[e] = s.m[b] ∧ t.resCount = 0 ∧
        OnlyCompletes
          { s with m := (s.m.set a t.m[a]).set e t.m[e], resCount := t.resCount, resRank := t.resRank } t))

/-- R220-R222: PATTERSON whose decoding succeeds (R220) writes the `1 × N` vector with exactly the positions flipped where the error
locator `σ` vanishes, `σ`, and their number, which is `deg σ` and at most `t`; where the decoding fails, its code is recorded. -/
def Obligations.PattersonCorrectsAtLocatorRoots : Prop :=
  ∀ (s : State) (a b : MReg) (c d : PReg), s.Configured → s.LengthOk → s.Received s.m[b] → s.GoppaOk s.p[c] →
    (∀ r, patterson s.field s.p[c] (s.m[b].rowAt 0) s.support s.sampledZs = .ok r →
      ∃ t, exec (.patterson a b c d) s = .next t ∧
        OnlyCompletes { s with m := s.m.set a t.m[a], p := s.p.set d t.p[d], resCount := t.resCount } t ∧
        t.m[a].rows = 1 ∧ t.m[a].cols = s.cfgN.toNat ∧ t.p[d] = r.σ ∧ (t.resCount.toNat : Int) = deg t.p[d] ∧
        deg t.p[d] ≤ deg s.p[c] ∧
        (∀ j, j < s.cfgN.toNat → t.m[a].bit 0 j =
          (s.m[b].bit 0 j ^^ decide (peval s.field t.p[d] (Memory.read s.sup j) = 0))) ∧
        (List.range s.cfgN.toNat).countP (fun j => peval s.field t.p[d] (Memory.read s.sup j) == 0) =
          t.resCount.toNat) ∧
    (∀ k, patterson s.field s.p[c] (s.m[b].rowAt 0) s.support s.sampledZs = .error k →
      FailsWith (.patterson a b c d) s k)

/-- The decoding guarantee of R224 (which the spec marks "from general knowledge, not in source: Patterson's theorem"): with an
irreducible `g` and distinct support entries, PATTERSON on a codeword `v` with 1 to `t` flipped bits `x` writes `v`, the number of
flipped bits, and a nonzero multiple of the product of `x + α_j` over the flipped positions. -/
def Obligations.PattersonCorrectsUpToDegreeErrors : Prop :=
  ∀ (s : State) (a b : MReg) (c d : PReg) (v x : Nat), s.Configured → s.LengthOk → s.GoppaOk s.p[c] →
    IrreducibleOver s.field s.p[c] → s.support.Nodup → v < 2 ^ s.cfgN.toNat → x < 2 ^ s.cfgN.toNat →
    synd s.field s.p[c] v s.support = .ok [] →
    s.m[b] = { cols := s.cfgN.toNat, row := [v ^^^ x] } →
    let flipped := (List.range s.cfgN.toNat).filter fun j => x.testBit j
    1 ≤ flipped.length → (flipped.length : Int) ≤ deg s.p[c] →
    ∃ t, exec (.patterson a b c d) s = .next t ∧
      OnlyCompletes { s with m := s.m.set a t.m[a], p := s.p.set d t.p[d], resCount := t.resCount } t ∧
      t.m[a] = { cols := s.cfgN.toNat, row := [v] } ∧ t.resCount.toNat = flipped.length ∧
      ∃ lam, lam ≠ 0 ∧ lam < 2 ^ s.field.m ∧
        t.p[d] = flipped.foldl (fun acc j => pmul s.field acc (norm [Memory.read s.sup j, 1])) [lam]

/-- R225, R226: DECODE whose decoding succeeds writes the corrected vector to `e`, a `1 × k` message to `a`, the root count, and the
rank of `G` (its rows have `2^rank` different sums); where the rows of `G` are independent and the corrected vector is a sum of them,
the message is that sum's selection of rows. -/
def Obligations.DecodeRecoversTheMessage : Prop :=
  ∀ (s : State) (a b : MReg) (c : PReg) (d e : MReg), s.Configured → s.LengthOk → s.Received s.m[b] →
    s.GoppaOk s.p[c] → a ≠ e → s.m[d].cols = s.cfgN.toNat → s.m[d].rows ≤ s.caps.cmax →
    (∀ r, patterson s.field s.p[c] (s.m[b].rowAt 0) s.support s.sampledZs = .ok r →
      ∃ t, exec (.decode a b c d e) s = .next t ∧
        OnlyCompletes
          { s with m := (s.m.set a t.m[a]).set e t.m[e], resCount := t.resCount, resRank := t.resRank } t ∧
        t.m[e] = { cols := s.cfgN.toNat, row := [r.c] } ∧ t.m[a].rows = 1 ∧ t.m[a].cols = s.m[d].rows ∧
        t.resCount.toNat = r.count ∧
        (Set.range fun u => selectRows u s.m[d].row).ncard = 2 ^ t.resRank.toNat ∧
        ((∀ u, u < 2 ^ s.m[d].rows → selectRows u s.m[d].row = 0 → u = 0) →
          ∀ u, u < 2 ^ s.m[d].rows → selectRows u s.m[d].row = r.c → t.m[a].row = [u])) ∧
    (∀ k, patterson s.field s.p[c] (s.m[b].rowAt 0) s.support s.sampledZs = .error k →
      FailsWith (.decode a b c d e) s k)

/-- R115, R210, R212, R244: the checks of the Goppa commands in their order: N, then the shapes (PCHECK reads no matrix and has none),
then the ranges of `g` and the support, then the degree of `g`, then its roots in the support. -/
def Obligations.GoppaChecksInOrder : Prop :=
  ∀ (s : State) (a b : MReg) (c p : PReg) (d e : MReg), s.status.cfgValid = true → a ≠ e →
    let refused := fun k : ErrCode =>
      (k = .operandRange ∧ ¬ (s.PolyInField s.p[c] ∧ s.SupportInField)) ∨
      (k = .goppaDegree ∧ s.PolyInField s.p[c] ∧ s.SupportInField ∧ deg s.p[c] < 1) ∨
      (k = .badSupport ∧ s.PolyInField s.p[c] ∧ s.SupportInField ∧ 1 ≤ deg s.p[c] ∧
        ∃ j, j < s.cfgN.toNat ∧ peval s.field s.p[c] (Memory.read s.sup j) = 0)
    (¬ s.LengthOk → FailsWith (.pcheck a c) s .badN ∧ FailsWith (.synd p b c) s .badN ∧
      FailsWith (.patterson a b c p) s .badN ∧ FailsWith (.decode a b c d e) s .badN) ∧
    (s.LengthOk → ∀ k, refused k → FailsWith (.pcheck a c) s k) ∧
    (s.LengthOk → ¬ s.Received s.m[b] → FailsWith (.synd p b c) s .badLength ∧
      FailsWith (.patterson a b c p) s .badLength ∧ FailsWith (.decode a b c d e) s .badLength) ∧
    (s.LengthOk → s.Received s.m[b] →
      (∀ k, refused k → FailsWith (.synd p b c) s k ∧ FailsWith (.patterson a b c p) s k) ∧
      (s.m[d].cols ≠ s.cfgN.toNat → FailsWith (.decode a b c d e) s .dimMismatch) ∧
      (s.m[d].cols = s.cfgN.toNat → s.caps.cmax < s.m[d].rows → FailsWith (.decode a b c d e) s .capacity) ∧
      (s.m[d].cols = s.cfgN.toNat → s.m[d].rows ≤ s.caps.cmax →
        ∀ k, refused k → FailsWith (.decode a b c d e) s k))
end

