-- ==== Sys2Proof/Laws/State.lean ====
section
/-! SUPPORT. The projections of every named update of the state, one lemma per field per update, so that no later proof unfolds a record
update. -/

namespace Sys2Proof.Machine

variable (s : State)

/-! ## setE -/

@[simp] theorem State.setE_caps (i : Fin 16) (v : Nat) : (s.setE i v).caps = s.caps := rfl
@[simp] theorem State.setE_ctrl (i : Fin 16) (v : Nat) : (s.setE i v).ctrl = s.ctrl := rfl
@[simp] theorem State.setE_status (i : Fin 16) (v : Nat) : (s.setE i v).status = s.status := rfl
@[simp] theorem State.setE_errcmd (i : Fin 16) (v : Nat) : (s.setE i v).errcmd = s.errcmd := rfl
@[simp] theorem State.setE_cfgM (i : Fin 16) (v : Nat) : (s.setE i v).cfgM = s.cfgM := rfl
@[simp] theorem State.setE_cfgFmod (i : Fin 16) (v : Nat) : (s.setE i v).cfgFmod = s.cfgFmod := rfl
@[simp] theorem State.setE_cfgN (i : Fin 16) (v : Nat) : (s.setE i v).cfgN = s.cfgN := rfl
@[simp] theorem State.setE_arg0 (i : Fin 16) (v : Nat) : (s.setE i v).arg0 = s.arg0 := rfl
@[simp] theorem State.setE_resCount (i : Fin 16) (v : Nat) : (s.setE i v).resCount = s.resCount := rfl
@[simp] theorem State.setE_resRank (i : Fin 16) (v : Nat) : (s.setE i v).resRank = s.resRank := rfl
@[simp] theorem State.setE_resFlag (i : Fin 16) (v : Nat) : (s.setE i v).resFlag = s.resFlag := rfl
@[simp] theorem State.setE_dsel (i : Fin 16) (v : Nat) : (s.setE i v).dsel = s.dsel := rfl
@[simp] theorem State.setE_didx (i : Fin 16) (v : Nat) : (s.setE i v).didx = s.didx := rfl
@[simp] theorem State.setE_e (i : Fin 16) (v : Nat) : (s.setE i v).e = s.e.set i (element s.caps v) := rfl
@[simp] theorem State.setE_p (i : Fin 16) (v : Nat) : (s.setE i v).p = s.p := rfl
@[simp] theorem State.setE_m (i : Fin 16) (v : Nat) : (s.setE i v).m = s.m := rfl
@[simp] theorem State.setE_sup (i : Fin 16) (v : Nat) : (s.setE i v).sup = s.sup := rfl
@[simp] theorem State.setE_pend (i : Fin 16) (v : Nat) : (s.setE i v).pend = s.pend := rfl
@[simp] theorem State.setE_inbox (i : Fin 16) (v : Nat) : (s.setE i v).inbox = s.inbox := rfl
@[simp] theorem State.setE_rdata (i : Fin 16) (v : Nat) : (s.setE i v).rdata = s.rdata := rfl

/-! ## setP -/

@[simp] theorem State.setP_caps (i : Fin 16) (q : Poly) : (s.setP i q).caps = s.caps := rfl
@[simp] theorem State.setP_ctrl (i : Fin 16) (q : Poly) : (s.setP i q).ctrl = s.ctrl := rfl
@[simp] theorem State.setP_status (i : Fin 16) (q : Poly) : (s.setP i q).status = s.status := rfl
@[simp] theorem State.setP_errcmd (i : Fin 16) (q : Poly) : (s.setP i q).errcmd = s.errcmd := rfl
@[simp] theorem State.setP_cfgM (i : Fin 16) (q : Poly) : (s.setP i q).cfgM = s.cfgM := rfl
@[simp] theorem State.setP_cfgFmod (i : Fin 16) (q : Poly) : (s.setP i q).cfgFmod = s.cfgFmod := rfl
@[simp] theorem State.setP_cfgN (i : Fin 16) (q : Poly) : (s.setP i q).cfgN = s.cfgN := rfl
@[simp] theorem State.setP_arg0 (i : Fin 16) (q : Poly) : (s.setP i q).arg0 = s.arg0 := rfl
@[simp] theorem State.setP_resCount (i : Fin 16) (q : Poly) : (s.setP i q).resCount = s.resCount := rfl
@[simp] theorem State.setP_resRank (i : Fin 16) (q : Poly) : (s.setP i q).resRank = s.resRank := rfl
@[simp] theorem State.setP_resFlag (i : Fin 16) (q : Poly) : (s.setP i q).resFlag = s.resFlag := rfl
@[simp] theorem State.setP_dsel (i : Fin 16) (q : Poly) : (s.setP i q).dsel = s.dsel := rfl
@[simp] theorem State.setP_didx (i : Fin 16) (q : Poly) : (s.setP i q).didx = s.didx := rfl
@[simp] theorem State.setP_e (i : Fin 16) (q : Poly) : (s.setP i q).e = s.e := rfl
@[simp] theorem State.setP_p (i : Fin 16) (q : Poly) : (s.setP i q).p = s.p.set i (storedPoly s.caps q) := rfl
@[simp] theorem State.setP_m (i : Fin 16) (q : Poly) : (s.setP i q).m = s.m := rfl
@[simp] theorem State.setP_sup (i : Fin 16) (q : Poly) : (s.setP i q).sup = s.sup := rfl
@[simp] theorem State.setP_pend (i : Fin 16) (q : Poly) : (s.setP i q).pend = s.pend := rfl
@[simp] theorem State.setP_inbox (i : Fin 16) (q : Poly) : (s.setP i q).inbox = s.inbox := rfl
@[simp] theorem State.setP_rdata (i : Fin 16) (q : Poly) : (s.setP i q).rdata = s.rdata := rfl

/-! ## setM -/

@[simp] theorem State.setM_caps (i : Fin 8) (A : Mat) : (s.setM i A).caps = s.caps := rfl
@[simp] theorem State.setM_ctrl (i : Fin 8) (A : Mat) : (s.setM i A).ctrl = s.ctrl := rfl
@[simp] theorem State.setM_status (i : Fin 8) (A : Mat) : (s.setM i A).status = s.status := rfl
@[simp] theorem State.setM_errcmd (i : Fin 8) (A : Mat) : (s.setM i A).errcmd = s.errcmd := rfl
@[simp] theorem State.setM_cfgM (i : Fin 8) (A : Mat) : (s.setM i A).cfgM = s.cfgM := rfl
@[simp] theorem State.setM_cfgFmod (i : Fin 8) (A : Mat) : (s.setM i A).cfgFmod = s.cfgFmod := rfl
@[simp] theorem State.setM_cfgN (i : Fin 8) (A : Mat) : (s.setM i A).cfgN = s.cfgN := rfl
@[simp] theorem State.setM_arg0 (i : Fin 8) (A : Mat) : (s.setM i A).arg0 = s.arg0 := rfl
@[simp] theorem State.setM_resCount (i : Fin 8) (A : Mat) : (s.setM i A).resCount = s.resCount := rfl
@[simp] theorem State.setM_resRank (i : Fin 8) (A : Mat) : (s.setM i A).resRank = s.resRank := rfl
@[simp] theorem State.setM_resFlag (i : Fin 8) (A : Mat) : (s.setM i A).resFlag = s.resFlag := rfl
@[simp] theorem State.setM_dsel (i : Fin 8) (A : Mat) : (s.setM i A).dsel = s.dsel := rfl
@[simp] theorem State.setM_didx (i : Fin 8) (A : Mat) : (s.setM i A).didx = s.didx := rfl
@[simp] theorem State.setM_e (i : Fin 8) (A : Mat) : (s.setM i A).e = s.e := rfl
@[simp] theorem State.setM_p (i : Fin 8) (A : Mat) : (s.setM i A).p = s.p := rfl
@[simp] theorem State.setM_m (i : Fin 8) (A : Mat) : (s.setM i A).m = s.m.set i A.masked := rfl
@[simp] theorem State.setM_sup (i : Fin 8) (A : Mat) : (s.setM i A).sup = s.sup := rfl
@[simp] theorem State.setM_pend (i : Fin 8) (A : Mat) : (s.setM i A).pend = s.pend := rfl
@[simp] theorem State.setM_inbox (i : Fin 8) (A : Mat) : (s.setM i A).inbox = s.inbox := rfl
@[simp] theorem State.setM_rdata (i : Fin 8) (A : Mat) : (s.setM i A).rdata = s.rdata := rfl

/-! ## moveE -/

@[simp] theorem State.moveE_caps (a b : Fin 16) : (s.moveE a b).caps = s.caps := rfl
@[simp] theorem State.moveE_ctrl (a b : Fin 16) : (s.moveE a b).ctrl = s.ctrl := rfl
@[simp] theorem State.moveE_status (a b : Fin 16) : (s.moveE a b).status = s.status := rfl
@[simp] theorem State.moveE_errcmd (a b : Fin 16) : (s.moveE a b).errcmd = s.errcmd := rfl
@[simp] theorem State.moveE_cfgM (a b : Fin 16) : (s.moveE a b).cfgM = s.cfgM := rfl
@[simp] theorem State.moveE_cfgFmod (a b : Fin 16) : (s.moveE a b).cfgFmod = s.cfgFmod := rfl
@[simp] theorem State.moveE_cfgN (a b : Fin 16) : (s.moveE a b).cfgN = s.cfgN := rfl
@[simp] theorem State.moveE_arg0 (a b : Fin 16) : (s.moveE a b).arg0 = s.arg0 := rfl
@[simp] theorem State.moveE_resCount (a b : Fin 16) : (s.moveE a b).resCount = s.resCount := rfl
@[simp] theorem State.moveE_resRank (a b : Fin 16) : (s.moveE a b).resRank = s.resRank := rfl
@[simp] theorem State.moveE_resFlag (a b : Fin 16) : (s.moveE a b).resFlag = s.resFlag := rfl
@[simp] theorem State.moveE_dsel (a b : Fin 16) : (s.moveE a b).dsel = s.dsel := rfl
@[simp] theorem State.moveE_didx (a b : Fin 16) : (s.moveE a b).didx = s.didx := rfl
@[simp] theorem State.moveE_e (a b : Fin 16) : (s.moveE a b).e = s.e.set a s.e[b] := rfl
@[simp] theorem State.moveE_p (a b : Fin 16) : (s.moveE a b).p = s.p := rfl
@[simp] theorem State.moveE_m (a b : Fin 16) : (s.moveE a b).m = s.m := rfl
@[simp] theorem State.moveE_sup (a b : Fin 16) : (s.moveE a b).sup = s.sup := rfl
@[simp] theorem State.moveE_pend (a b : Fin 16) : (s.moveE a b).pend = s.pend := rfl
@[simp] theorem State.moveE_inbox (a b : Fin 16) : (s.moveE a b).inbox = s.inbox := rfl
@[simp] theorem State.moveE_rdata (a b : Fin 16) : (s.moveE a b).rdata = s.rdata := rfl

/-! ## moveP -/

@[simp] theorem State.moveP_caps (a b : Fin 16) : (s.moveP a b).caps = s.caps := rfl
@[simp] theorem State.moveP_ctrl (a b : Fin 16) : (s.moveP a b).ctrl = s.ctrl := rfl
@[simp] theorem State.moveP_status (a b : Fin 16) : (s.moveP a b).status = s.status := rfl
@[simp] theorem State.moveP_errcmd (a b : Fin 16) : (s.moveP a b).errcmd = s.errcmd := rfl
@[simp] theorem State.moveP_cfgM (a b : Fin 16) : (s.moveP a b).cfgM = s.cfgM := rfl
@[simp] theorem State.moveP_cfgFmod (a b : Fin 16) : (s.moveP a b).cfgFmod = s.cfgFmod := rfl
@[simp] theorem State.moveP_cfgN (a b : Fin 16) : (s.moveP a b).cfgN = s.cfgN := rfl
@[simp] theorem State.moveP_arg0 (a b : Fin 16) : (s.moveP a b).arg0 = s.arg0 := rfl
@[simp] theorem State.moveP_resCount (a b : Fin 16) : (s.moveP a b).resCount = s.resCount := rfl
@[simp] theorem State.moveP_resRank (a b : Fin 16) : (s.moveP a b).resRank = s.resRank := rfl
@[simp] theorem State.moveP_resFlag (a b : Fin 16) : (s.moveP a b).resFlag = s.resFlag := rfl
@[simp] theorem State.moveP_dsel (a b : Fin 16) : (s.moveP a b).dsel = s.dsel := rfl
@[simp] theorem State.moveP_didx (a b : Fin 16) : (s.moveP a b).didx = s.didx := rfl
@[simp] theorem State.moveP_e (a b : Fin 16) : (s.moveP a b).e = s.e := rfl
@[simp] theorem State.moveP_p (a b : Fin 16) : (s.moveP a b).p = s.p.set a s.p[b] := rfl
@[simp] theorem State.moveP_m (a b : Fin 16) : (s.moveP a b).m = s.m := rfl
@[simp] theorem State.moveP_sup (a b : Fin 16) : (s.moveP a b).sup = s.sup := rfl
@[simp] theorem State.moveP_pend (a b : Fin 16) : (s.moveP a b).pend = s.pend := rfl
@[simp] theorem State.moveP_inbox (a b : Fin 16) : (s.moveP a b).inbox = s.inbox := rfl
@[simp] theorem State.moveP_rdata (a b : Fin 16) : (s.moveP a b).rdata = s.rdata := rfl

/-! ## moveM -/

@[simp] theorem State.moveM_caps (a b : Fin 8) : (s.moveM a b).caps = s.caps := rfl
@[simp] theorem State.moveM_ctrl (a b : Fin 8) : (s.moveM a b).ctrl = s.ctrl := rfl
@[simp] theorem State.moveM_status (a b : Fin 8) : (s.moveM a b).status = s.status := rfl
@[simp] theorem State.moveM_errcmd (a b : Fin 8) : (s.moveM a b).errcmd = s.errcmd := rfl
@[simp] theorem State.moveM_cfgM (a b : Fin 8) : (s.moveM a b).cfgM = s.cfgM := rfl
@[simp] theorem State.moveM_cfgFmod (a b : Fin 8) : (s.moveM a b).cfgFmod = s.cfgFmod := rfl
@[simp] theorem State.moveM_cfgN (a b : Fin 8) : (s.moveM a b).cfgN = s.cfgN := rfl
@[simp] theorem State.moveM_arg0 (a b : Fin 8) : (s.moveM a b).arg0 = s.arg0 := rfl
@[simp] theorem State.moveM_resCount (a b : Fin 8) : (s.moveM a b).resCount = s.resCount := rfl
@[simp] theorem State.moveM_resRank (a b : Fin 8) : (s.moveM a b).resRank = s.resRank := rfl
@[simp] theorem State.moveM_resFlag (a b : Fin 8) : (s.moveM a b).resFlag = s.resFlag := rfl
@[simp] theorem State.moveM_dsel (a b : Fin 8) : (s.moveM a b).dsel = s.dsel := rfl
@[simp] theorem State.moveM_didx (a b : Fin 8) : (s.moveM a b).didx = s.didx := rfl
@[simp] theorem State.moveM_e (a b : Fin 8) : (s.moveM a b).e = s.e := rfl
@[simp] theorem State.moveM_p (a b : Fin 8) : (s.moveM a b).p = s.p := rfl
@[simp] theorem State.moveM_m (a b : Fin 8) : (s.moveM a b).m = s.m.set a s.m[b] := rfl
@[simp] theorem State.moveM_sup (a b : Fin 8) : (s.moveM a b).sup = s.sup := rfl
@[simp] theorem State.moveM_pend (a b : Fin 8) : (s.moveM a b).pend = s.pend := rfl
@[simp] theorem State.moveM_inbox (a b : Fin 8) : (s.moveM a b).inbox = s.inbox := rfl
@[simp] theorem State.moveM_rdata (a b : Fin 8) : (s.moveM a b).rdata = s.rdata := rfl

/-! ## setSup -/

@[simp] theorem State.setSup_caps (i v : Nat) : (s.setSup i v).caps = s.caps := rfl
@[simp] theorem State.setSup_ctrl (i v : Nat) : (s.setSup i v).ctrl = s.ctrl := rfl
@[simp] theorem State.setSup_status (i v : Nat) : (s.setSup i v).status = s.status := rfl
@[simp] theorem State.setSup_errcmd (i v : Nat) : (s.setSup i v).errcmd = s.errcmd := rfl
@[simp] theorem State.setSup_cfgM (i v : Nat) : (s.setSup i v).cfgM = s.cfgM := rfl
@[simp] theorem State.setSup_cfgFmod (i v : Nat) : (s.setSup i v).cfgFmod = s.cfgFmod := rfl
@[simp] theorem State.setSup_cfgN (i v : Nat) : (s.setSup i v).cfgN = s.cfgN := rfl
@[simp] theorem State.setSup_arg0 (i v : Nat) : (s.setSup i v).arg0 = s.arg0 := rfl
@[simp] theorem State.setSup_resCount (i v : Nat) : (s.setSup i v).resCount = s.resCount := rfl
@[simp] theorem State.setSup_resRank (i v : Nat) : (s.setSup i v).resRank = s.resRank := rfl
@[simp] theorem State.setSup_resFlag (i v : Nat) : (s.setSup i v).resFlag = s.resFlag := rfl
@[simp] theorem State.setSup_dsel (i v : Nat) : (s.setSup i v).dsel = s.dsel := rfl
@[simp] theorem State.setSup_didx (i v : Nat) : (s.setSup i v).didx = s.didx := rfl
@[simp] theorem State.setSup_e (i v : Nat) : (s.setSup i v).e = s.e := rfl
@[simp] theorem State.setSup_p (i v : Nat) : (s.setSup i v).p = s.p := rfl
@[simp] theorem State.setSup_m (i v : Nat) : (s.setSup i v).m = s.m := rfl
@[simp] theorem State.setSup_sup (i v : Nat) : (s.setSup i v).sup = Memory.write s.sup i (element s.caps v) := rfl
@[simp] theorem State.setSup_pend (i v : Nat) : (s.setSup i v).pend = s.pend := rfl
@[simp] theorem State.setSup_inbox (i v : Nat) : (s.setSup i v).inbox = s.inbox := rfl
@[simp] theorem State.setSup_rdata (i v : Nat) : (s.setSup i v).rdata = s.rdata := rfl

/-! ## setSupFirst -/

@[simp] theorem State.setSupFirst_caps (vs : List Nat) : (s.setSupFirst vs).caps = s.caps := rfl
@[simp] theorem State.setSupFirst_ctrl (vs : List Nat) : (s.setSupFirst vs).ctrl = s.ctrl := rfl
@[simp] theorem State.setSupFirst_status (vs : List Nat) : (s.setSupFirst vs).status = s.status := rfl
@[simp] theorem State.setSupFirst_errcmd (vs : List Nat) : (s.setSupFirst vs).errcmd = s.errcmd := rfl
@[simp] theorem State.setSupFirst_cfgM (vs : List Nat) : (s.setSupFirst vs).cfgM = s.cfgM := rfl
@[simp] theorem State.setSupFirst_cfgFmod (vs : List Nat) : (s.setSupFirst vs).cfgFmod = s.cfgFmod := rfl
@[simp] theorem State.setSupFirst_cfgN (vs : List Nat) : (s.setSupFirst vs).cfgN = s.cfgN := rfl
@[simp] theorem State.setSupFirst_arg0 (vs : List Nat) : (s.setSupFirst vs).arg0 = s.arg0 := rfl
@[simp] theorem State.setSupFirst_resCount (vs : List Nat) : (s.setSupFirst vs).resCount = s.resCount := rfl
@[simp] theorem State.setSupFirst_resRank (vs : List Nat) : (s.setSupFirst vs).resRank = s.resRank := rfl
@[simp] theorem State.setSupFirst_resFlag (vs : List Nat) : (s.setSupFirst vs).resFlag = s.resFlag := rfl
@[simp] theorem State.setSupFirst_dsel (vs : List Nat) : (s.setSupFirst vs).dsel = s.dsel := rfl
@[simp] theorem State.setSupFirst_didx (vs : List Nat) : (s.setSupFirst vs).didx = s.didx := rfl
@[simp] theorem State.setSupFirst_e (vs : List Nat) : (s.setSupFirst vs).e = s.e := rfl
@[simp] theorem State.setSupFirst_p (vs : List Nat) : (s.setSupFirst vs).p = s.p := rfl
@[simp] theorem State.setSupFirst_m (vs : List Nat) : (s.setSupFirst vs).m = s.m := rfl
@[simp] theorem State.setSupFirst_sup (vs : List Nat) : (s.setSupFirst vs).sup = norm (vs.map (element s.caps) ++ s.sup.drop vs.length) := rfl
@[simp] theorem State.setSupFirst_pend (vs : List Nat) : (s.setSupFirst vs).pend = s.pend := rfl
@[simp] theorem State.setSupFirst_inbox (vs : List Nat) : (s.setSupFirst vs).inbox = s.inbox := rfl
@[simp] theorem State.setSupFirst_rdata (vs : List Nat) : (s.setSupFirst vs).rdata = s.rdata := rfl

/-! ## setCount -/

@[simp] theorem State.setCount_caps (n : Nat) : (s.setCount n).caps = s.caps := rfl
@[simp] theorem State.setCount_ctrl (n : Nat) : (s.setCount n).ctrl = s.ctrl := rfl
@[simp] theorem State.setCount_status (n : Nat) : (s.setCount n).status = s.status := rfl
@[simp] theorem State.setCount_errcmd (n : Nat) : (s.setCount n).errcmd = s.errcmd := rfl
@[simp] theorem State.setCount_cfgM (n : Nat) : (s.setCount n).cfgM = s.cfgM := rfl
@[simp] theorem State.setCount_cfgFmod (n : Nat) : (s.setCount n).cfgFmod = s.cfgFmod := rfl
@[simp] theorem State.setCount_cfgN (n : Nat) : (s.setCount n).cfgN = s.cfgN := rfl
@[simp] theorem State.setCount_arg0 (n : Nat) : (s.setCount n).arg0 = s.arg0 := rfl
@[simp] theorem State.setCount_resCount (n : Nat) : (s.setCount n).resCount = BitVec.ofNat 32 n := rfl
@[simp] theorem State.setCount_resRank (n : Nat) : (s.setCount n).resRank = s.resRank := rfl
@[simp] theorem State.setCount_resFlag (n : Nat) : (s.setCount n).resFlag = s.resFlag := rfl
@[simp] theorem State.setCount_dsel (n : Nat) : (s.setCount n).dsel = s.dsel := rfl
@[simp] theorem State.setCount_didx (n : Nat) : (s.setCount n).didx = s.didx := rfl
@[simp] theorem State.setCount_e (n : Nat) : (s.setCount n).e = s.e := rfl
@[simp] theorem State.setCount_p (n : Nat) : (s.setCount n).p = s.p := rfl
@[simp] theorem State.setCount_m (n : Nat) : (s.setCount n).m = s.m := rfl
@[simp] theorem State.setCount_sup (n : Nat) : (s.setCount n).sup = s.sup := rfl
@[simp] theorem State.setCount_pend (n : Nat) : (s.setCount n).pend = s.pend := rfl
@[simp] theorem State.setCount_inbox (n : Nat) : (s.setCount n).inbox = s.inbox := rfl
@[simp] theorem State.setCount_rdata (n : Nat) : (s.setCount n).rdata = s.rdata := rfl

/-! ## setRank -/

@[simp] theorem State.setRank_caps (n : Nat) : (s.setRank n).caps = s.caps := rfl
@[simp] theorem State.setRank_ctrl (n : Nat) : (s.setRank n).ctrl = s.ctrl := rfl
@[simp] theorem State.setRank_status (n : Nat) : (s.setRank n).status = s.status := rfl
@[simp] theorem State.setRank_errcmd (n : Nat) : (s.setRank n).errcmd = s.errcmd := rfl
@[simp] theorem State.setRank_cfgM (n : Nat) : (s.setRank n).cfgM = s.cfgM := rfl
@[simp] theorem State.setRank_cfgFmod (n : Nat) : (s.setRank n).cfgFmod = s.cfgFmod := rfl
@[simp] theorem State.setRank_cfgN (n : Nat) : (s.setRank n).cfgN = s.cfgN := rfl
@[simp] theorem State.setRank_arg0 (n : Nat) : (s.setRank n).arg0 = s.arg0 := rfl
@[simp] theorem State.setRank_resCount (n : Nat) : (s.setRank n).resCount = s.resCount := rfl
@[simp] theorem State.setRank_resRank (n : Nat) : (s.setRank n).resRank = BitVec.ofNat 32 n := rfl
@[simp] theorem State.setRank_resFlag (n : Nat) : (s.setRank n).resFlag = s.resFlag := rfl
@[simp] theorem State.setRank_dsel (n : Nat) : (s.setRank n).dsel = s.dsel := rfl
@[simp] theorem State.setRank_didx (n : Nat) : (s.setRank n).didx = s.didx := rfl
@[simp] theorem State.setRank_e (n : Nat) : (s.setRank n).e = s.e := rfl
@[simp] theorem State.setRank_p (n : Nat) : (s.setRank n).p = s.p := rfl
@[simp] theorem State.setRank_m (n : Nat) : (s.setRank n).m = s.m := rfl
@[simp] theorem State.setRank_sup (n : Nat) : (s.setRank n).sup = s.sup := rfl
@[simp] theorem State.setRank_pend (n : Nat) : (s.setRank n).pend = s.pend := rfl
@[simp] theorem State.setRank_inbox (n : Nat) : (s.setRank n).inbox = s.inbox := rfl
@[simp] theorem State.setRank_rdata (n : Nat) : (s.setRank n).rdata = s.rdata := rfl

/-! ## setFlag -/

@[simp] theorem State.setFlag_caps (b : Bool) : (s.setFlag b).caps = s.caps := rfl
@[simp] theorem State.setFlag_ctrl (b : Bool) : (s.setFlag b).ctrl = s.ctrl := rfl
@[simp] theorem State.setFlag_status (b : Bool) : (s.setFlag b).status = s.status := rfl
@[simp] theorem State.setFlag_errcmd (b : Bool) : (s.setFlag b).errcmd = s.errcmd := rfl
@[simp] theorem State.setFlag_cfgM (b : Bool) : (s.setFlag b).cfgM = s.cfgM := rfl
@[simp] theorem State.setFlag_cfgFmod (b : Bool) : (s.setFlag b).cfgFmod = s.cfgFmod := rfl
@[simp] theorem State.setFlag_cfgN (b : Bool) : (s.setFlag b).cfgN = s.cfgN := rfl
@[simp] theorem State.setFlag_arg0 (b : Bool) : (s.setFlag b).arg0 = s.arg0 := rfl
@[simp] theorem State.setFlag_resCount (b : Bool) : (s.setFlag b).resCount = s.resCount := rfl
@[simp] theorem State.setFlag_resRank (b : Bool) : (s.setFlag b).resRank = s.resRank := rfl
@[simp] theorem State.setFlag_resFlag (b : Bool) : (s.setFlag b).resFlag = b := rfl
@[simp] theorem State.setFlag_dsel (b : Bool) : (s.setFlag b).dsel = s.dsel := rfl
@[simp] theorem State.setFlag_didx (b : Bool) : (s.setFlag b).didx = s.didx := rfl
@[simp] theorem State.setFlag_e (b : Bool) : (s.setFlag b).e = s.e := rfl
@[simp] theorem State.setFlag_p (b : Bool) : (s.setFlag b).p = s.p := rfl
@[simp] theorem State.setFlag_m (b : Bool) : (s.setFlag b).m = s.m := rfl
@[simp] theorem State.setFlag_sup (b : Bool) : (s.setFlag b).sup = s.sup := rfl
@[simp] theorem State.setFlag_pend (b : Bool) : (s.setFlag b).pend = s.pend := rfl
@[simp] theorem State.setFlag_inbox (b : Bool) : (s.setFlag b).inbox = s.inbox := rfl
@[simp] theorem State.setFlag_rdata (b : Bool) : (s.setFlag b).rdata = s.rdata := rfl

/-! ## setCfgValid -/

@[simp] theorem State.setCfgValid_caps (b : Bool) : (s.setCfgValid b).caps = s.caps := rfl
@[simp] theorem State.setCfgValid_ctrl (b : Bool) : (s.setCfgValid b).ctrl = s.ctrl := rfl
@[simp] theorem State.setCfgValid_status (b : Bool) : (s.setCfgValid b).status = { s.status with cfgValid := b } := rfl
@[simp] theorem State.setCfgValid_errcmd (b : Bool) : (s.setCfgValid b).errcmd = s.errcmd := rfl
@[simp] theorem State.setCfgValid_cfgM (b : Bool) : (s.setCfgValid b).cfgM = s.cfgM := rfl
@[simp] theorem State.setCfgValid_cfgFmod (b : Bool) : (s.setCfgValid b).cfgFmod = s.cfgFmod := rfl
@[simp] theorem State.setCfgValid_cfgN (b : Bool) : (s.setCfgValid b).cfgN = s.cfgN := rfl
@[simp] theorem State.setCfgValid_arg0 (b : Bool) : (s.setCfgValid b).arg0 = s.arg0 := rfl
@[simp] theorem State.setCfgValid_resCount (b : Bool) : (s.setCfgValid b).resCount = s.resCount := rfl
@[simp] theorem State.setCfgValid_resRank (b : Bool) : (s.setCfgValid b).resRank = s.resRank := rfl
@[simp] theorem State.setCfgValid_resFlag (b : Bool) : (s.setCfgValid b).resFlag = s.resFlag := rfl
@[simp] theorem State.setCfgValid_dsel (b : Bool) : (s.setCfgValid b).dsel = s.dsel := rfl
@[simp] theorem State.setCfgValid_didx (b : Bool) : (s.setCfgValid b).didx = s.didx := rfl
@[simp] theorem State.setCfgValid_e (b : Bool) : (s.setCfgValid b).e = s.e := rfl
@[simp] theorem State.setCfgValid_p (b : Bool) : (s.setCfgValid b).p = s.p := rfl
@[simp] theorem State.setCfgValid_m (b : Bool) : (s.setCfgValid b).m = s.m := rfl
@[simp] theorem State.setCfgValid_sup (b : Bool) : (s.setCfgValid b).sup = s.sup := rfl
@[simp] theorem State.setCfgValid_pend (b : Bool) : (s.setCfgValid b).pend = s.pend := rfl
@[simp] theorem State.setCfgValid_inbox (b : Bool) : (s.setCfgValid b).inbox = s.inbox := rfl
@[simp] theorem State.setCfgValid_rdata (b : Bool) : (s.setCfgValid b).rdata = s.rdata := rfl

/-! ## clearFailure -/

@[simp] theorem State.clearFailure_caps : (s.clearFailure).caps = s.caps := rfl
@[simp] theorem State.clearFailure_ctrl : (s.clearFailure).ctrl = s.ctrl := rfl
@[simp] theorem State.clearFailure_status : (s.clearFailure).status = { s.status with err := false, errm := false, errcode := .none } := rfl
@[simp] theorem State.clearFailure_errcmd : (s.clearFailure).errcmd = 0 := rfl
@[simp] theorem State.clearFailure_cfgM : (s.clearFailure).cfgM = s.cfgM := rfl
@[simp] theorem State.clearFailure_cfgFmod : (s.clearFailure).cfgFmod = s.cfgFmod := rfl
@[simp] theorem State.clearFailure_cfgN : (s.clearFailure).cfgN = s.cfgN := rfl
@[simp] theorem State.clearFailure_arg0 : (s.clearFailure).arg0 = s.arg0 := rfl
@[simp] theorem State.clearFailure_resCount : (s.clearFailure).resCount = s.resCount := rfl
@[simp] theorem State.clearFailure_resRank : (s.clearFailure).resRank = s.resRank := rfl
@[simp] theorem State.clearFailure_resFlag : (s.clearFailure).resFlag = s.resFlag := rfl
@[simp] theorem State.clearFailure_dsel : (s.clearFailure).dsel = s.dsel := rfl
@[simp] theorem State.clearFailure_didx : (s.clearFailure).didx = s.didx := rfl
@[simp] theorem State.clearFailure_e : (s.clearFailure).e = s.e := rfl
@[simp] theorem State.clearFailure_p : (s.clearFailure).p = s.p := rfl
@[simp] theorem State.clearFailure_m : (s.clearFailure).m = s.m := rfl
@[simp] theorem State.clearFailure_sup : (s.clearFailure).sup = s.sup := rfl
@[simp] theorem State.clearFailure_pend : (s.clearFailure).pend = s.pend := rfl
@[simp] theorem State.clearFailure_inbox : (s.clearFailure).inbox = s.inbox := rfl
@[simp] theorem State.clearFailure_rdata : (s.clearFailure).rdata = s.rdata := rfl

/-! ## issue -/

@[simp] theorem State.issue_caps (w : Word) : (s.issue w).caps = s.caps := rfl
@[simp] theorem State.issue_ctrl (w : Word) : (s.issue w).ctrl = s.ctrl := rfl
@[simp] theorem State.issue_status (w : Word) : (s.issue w).status = { s.status with done := false } := rfl
@[simp] theorem State.issue_errcmd (w : Word) : (s.issue w).errcmd = s.errcmd := rfl
@[simp] theorem State.issue_cfgM (w : Word) : (s.issue w).cfgM = s.cfgM := rfl
@[simp] theorem State.issue_cfgFmod (w : Word) : (s.issue w).cfgFmod = s.cfgFmod := rfl
@[simp] theorem State.issue_cfgN (w : Word) : (s.issue w).cfgN = s.cfgN := rfl
@[simp] theorem State.issue_arg0 (w : Word) : (s.issue w).arg0 = s.arg0 := rfl
@[simp] theorem State.issue_resCount (w : Word) : (s.issue w).resCount = s.resCount := rfl
@[simp] theorem State.issue_resRank (w : Word) : (s.issue w).resRank = s.resRank := rfl
@[simp] theorem State.issue_resFlag (w : Word) : (s.issue w).resFlag = s.resFlag := rfl
@[simp] theorem State.issue_dsel (w : Word) : (s.issue w).dsel = s.dsel := rfl
@[simp] theorem State.issue_didx (w : Word) : (s.issue w).didx = s.didx := rfl
@[simp] theorem State.issue_e (w : Word) : (s.issue w).e = s.e := rfl
@[simp] theorem State.issue_p (w : Word) : (s.issue w).p = s.p := rfl
@[simp] theorem State.issue_m (w : Word) : (s.issue w).m = s.m := rfl
@[simp] theorem State.issue_sup (w : Word) : (s.issue w).sup = s.sup := rfl
@[simp] theorem State.issue_pend (w : Word) : (s.issue w).pend = .run w s.ctrl.zsPass := rfl
@[simp] theorem State.issue_inbox (w : Word) : (s.issue w).inbox = s.inbox := rfl
@[simp] theorem State.issue_rdata (w : Word) : (s.issue w).rdata = s.rdata := rfl

/-! ## finish -/

@[simp] theorem State.finish_caps : (s.finish).caps = s.caps := rfl
@[simp] theorem State.finish_ctrl : (s.finish).ctrl = s.ctrl := rfl
@[simp] theorem State.finish_status : (s.finish).status = { s.status with done := true } := rfl
@[simp] theorem State.finish_errcmd : (s.finish).errcmd = s.errcmd := rfl
@[simp] theorem State.finish_cfgM : (s.finish).cfgM = s.cfgM := rfl
@[simp] theorem State.finish_cfgFmod : (s.finish).cfgFmod = s.cfgFmod := rfl
@[simp] theorem State.finish_cfgN : (s.finish).cfgN = s.cfgN := rfl
@[simp] theorem State.finish_arg0 : (s.finish).arg0 = s.arg0 := rfl
@[simp] theorem State.finish_resCount : (s.finish).resCount = s.resCount := rfl
@[simp] theorem State.finish_resRank : (s.finish).resRank = s.resRank := rfl
@[simp] theorem State.finish_resFlag : (s.finish).resFlag = s.resFlag := rfl
@[simp] theorem State.finish_dsel : (s.finish).dsel = s.dsel := rfl
@[simp] theorem State.finish_didx : (s.finish).didx = s.didx := rfl
@[simp] theorem State.finish_e : (s.finish).e = s.e := rfl
@[simp] theorem State.finish_p : (s.finish).p = s.p := rfl
@[simp] theorem State.finish_m : (s.finish).m = s.m := rfl
@[simp] theorem State.finish_sup : (s.finish).sup = s.sup := rfl
@[simp] theorem State.finish_pend : (s.finish).pend = .none := rfl
@[simp] theorem State.finish_inbox : (s.finish).inbox = s.inbox := rfl
@[simp] theorem State.finish_rdata : (s.finish).rdata = s.rdata := rfl

/-! ## clearDone -/

@[simp] theorem State.clearDone_caps : (s.clearDone).caps = s.caps := rfl
@[simp] theorem State.clearDone_ctrl : (s.clearDone).ctrl = s.ctrl := rfl
@[simp] theorem State.clearDone_status : (s.clearDone).status = { s.status with done := false } := rfl
@[simp] theorem State.clearDone_errcmd : (s.clearDone).errcmd = s.errcmd := rfl
@[simp] theorem State.clearDone_cfgM : (s.clearDone).cfgM = s.cfgM := rfl
@[simp] theorem State.clearDone_cfgFmod : (s.clearDone).cfgFmod = s.cfgFmod := rfl
@[simp] theorem State.clearDone_cfgN : (s.clearDone).cfgN = s.cfgN := rfl
@[simp] theorem State.clearDone_arg0 : (s.clearDone).arg0 = s.arg0 := rfl
@[simp] theorem State.clearDone_resCount : (s.clearDone).resCount = s.resCount := rfl
@[simp] theorem State.clearDone_resRank : (s.clearDone).resRank = s.resRank := rfl
@[simp] theorem State.clearDone_resFlag : (s.clearDone).resFlag = s.resFlag := rfl
@[simp] theorem State.clearDone_dsel : (s.clearDone).dsel = s.dsel := rfl
@[simp] theorem State.clearDone_didx : (s.clearDone).didx = s.didx := rfl
@[simp] theorem State.clearDone_e : (s.clearDone).e = s.e := rfl
@[simp] theorem State.clearDone_p : (s.clearDone).p = s.p := rfl
@[simp] theorem State.clearDone_m : (s.clearDone).m = s.m := rfl
@[simp] theorem State.clearDone_sup : (s.clearDone).sup = s.sup := rfl
@[simp] theorem State.clearDone_pend : (s.clearDone).pend = s.pend := rfl
@[simp] theorem State.clearDone_inbox : (s.clearDone).inbox = s.inbox := rfl
@[simp] theorem State.clearDone_rdata : (s.clearDone).rdata = s.rdata := rfl

/-! ## clearOvr -/

@[simp] theorem State.clearOvr_caps : (s.clearOvr).caps = s.caps := rfl
@[simp] theorem State.clearOvr_ctrl : (s.clearOvr).ctrl = s.ctrl := rfl
@[simp] theorem State.clearOvr_status : (s.clearOvr).status = { s.status with ovr := false } := rfl
@[simp] theorem State.clearOvr_errcmd : (s.clearOvr).errcmd = s.errcmd := rfl
@[simp] theorem State.clearOvr_cfgM : (s.clearOvr).cfgM = s.cfgM := rfl
@[simp] theorem State.clearOvr_cfgFmod : (s.clearOvr).cfgFmod = s.cfgFmod := rfl
@[simp] theorem State.clearOvr_cfgN : (s.clearOvr).cfgN = s.cfgN := rfl
@[simp] theorem State.clearOvr_arg0 : (s.clearOvr).arg0 = s.arg0 := rfl
@[simp] theorem State.clearOvr_resCount : (s.clearOvr).resCount = s.resCount := rfl
@[simp] theorem State.clearOvr_resRank : (s.clearOvr).resRank = s.resRank := rfl
@[simp] theorem State.clearOvr_resFlag : (s.clearOvr).resFlag = s.resFlag := rfl
@[simp] theorem State.clearOvr_dsel : (s.clearOvr).dsel = s.dsel := rfl
@[simp] theorem State.clearOvr_didx : (s.clearOvr).didx = s.didx := rfl
@[simp] theorem State.clearOvr_e : (s.clearOvr).e = s.e := rfl
@[simp] theorem State.clearOvr_p : (s.clearOvr).p = s.p := rfl
@[simp] theorem State.clearOvr_m : (s.clearOvr).m = s.m := rfl
@[simp] theorem State.clearOvr_sup : (s.clearOvr).sup = s.sup := rfl
@[simp] theorem State.clearOvr_pend : (s.clearOvr).pend = s.pend := rfl
@[simp] theorem State.clearOvr_inbox : (s.clearOvr).inbox = s.inbox := rfl
@[simp] theorem State.clearOvr_rdata : (s.clearOvr).rdata = s.rdata := rfl

/-! ## clearAerr -/

@[simp] theorem State.clearAerr_caps : (s.clearAerr).caps = s.caps := rfl
@[simp] theorem State.clearAerr_ctrl : (s.clearAerr).ctrl = s.ctrl := rfl
@[simp] theorem State.clearAerr_status : (s.clearAerr).status = { s.status with aerr := false } := rfl
@[simp] theorem State.clearAerr_errcmd : (s.clearAerr).errcmd = s.errcmd := rfl
@[simp] theorem State.clearAerr_cfgM : (s.clearAerr).cfgM = s.cfgM := rfl
@[simp] theorem State.clearAerr_cfgFmod : (s.clearAerr).cfgFmod = s.cfgFmod := rfl
@[simp] theorem State.clearAerr_cfgN : (s.clearAerr).cfgN = s.cfgN := rfl
@[simp] theorem State.clearAerr_arg0 : (s.clearAerr).arg0 = s.arg0 := rfl
@[simp] theorem State.clearAerr_resCount : (s.clearAerr).resCount = s.resCount := rfl
@[simp] theorem State.clearAerr_resRank : (s.clearAerr).resRank = s.resRank := rfl
@[simp] theorem State.clearAerr_resFlag : (s.clearAerr).resFlag = s.resFlag := rfl
@[simp] theorem State.clearAerr_dsel : (s.clearAerr).dsel = s.dsel := rfl
@[simp] theorem State.clearAerr_didx : (s.clearAerr).didx = s.didx := rfl
@[simp] theorem State.clearAerr_e : (s.clearAerr).e = s.e := rfl
@[simp] theorem State.clearAerr_p : (s.clearAerr).p = s.p := rfl
@[simp] theorem State.clearAerr_m : (s.clearAerr).m = s.m := rfl
@[simp] theorem State.clearAerr_sup : (s.clearAerr).sup = s.sup := rfl
@[simp] theorem State.clearAerr_pend : (s.clearAerr).pend = s.pend := rfl
@[simp] theorem State.clearAerr_inbox : (s.clearAerr).inbox = s.inbox := rfl
@[simp] theorem State.clearAerr_rdata : (s.clearAerr).rdata = s.rdata := rfl

/-! ## setOvr -/

@[simp] theorem State.setOvr_caps : (s.setOvr).caps = s.caps := rfl
@[simp] theorem State.setOvr_ctrl : (s.setOvr).ctrl = s.ctrl := rfl
@[simp] theorem State.setOvr_status : (s.setOvr).status = { s.status with ovr := true } := rfl
@[simp] theorem State.setOvr_errcmd : (s.setOvr).errcmd = s.errcmd := rfl
@[simp] theorem State.setOvr_cfgM : (s.setOvr).cfgM = s.cfgM := rfl
@[simp] theorem State.setOvr_cfgFmod : (s.setOvr).cfgFmod = s.cfgFmod := rfl
@[simp] theorem State.setOvr_cfgN : (s.setOvr).cfgN = s.cfgN := rfl
@[simp] theorem State.setOvr_arg0 : (s.setOvr).arg0 = s.arg0 := rfl
@[simp] theorem State.setOvr_resCount : (s.setOvr).resCount = s.resCount := rfl
@[simp] theorem State.setOvr_resRank : (s.setOvr).resRank = s.resRank := rfl
@[simp] theorem State.setOvr_resFlag : (s.setOvr).resFlag = s.resFlag := rfl
@[simp] theorem State.setOvr_dsel : (s.setOvr).dsel = s.dsel := rfl
@[simp] theorem State.setOvr_didx : (s.setOvr).didx = s.didx := rfl
@[simp] theorem State.setOvr_e : (s.setOvr).e = s.e := rfl
@[simp] theorem State.setOvr_p : (s.setOvr).p = s.p := rfl
@[simp] theorem State.setOvr_m : (s.setOvr).m = s.m := rfl
@[simp] theorem State.setOvr_sup : (s.setOvr).sup = s.sup := rfl
@[simp] theorem State.setOvr_pend : (s.setOvr).pend = s.pend := rfl
@[simp] theorem State.setOvr_inbox : (s.setOvr).inbox = s.inbox := rfl
@[simp] theorem State.setOvr_rdata : (s.setOvr).rdata = s.rdata := rfl

/-! ## setAerr -/

@[simp] theorem State.setAerr_caps : (s.setAerr).caps = s.caps := rfl
@[simp] theorem State.setAerr_ctrl : (s.setAerr).ctrl = s.ctrl := rfl
@[simp] theorem State.setAerr_status : (s.setAerr).status = { s.status with aerr := true } := rfl
@[simp] theorem State.setAerr_errcmd : (s.setAerr).errcmd = s.errcmd := rfl
@[simp] theorem State.setAerr_cfgM : (s.setAerr).cfgM = s.cfgM := rfl
@[simp] theorem State.setAerr_cfgFmod : (s.setAerr).cfgFmod = s.cfgFmod := rfl
@[simp] theorem State.setAerr_cfgN : (s.setAerr).cfgN = s.cfgN := rfl
@[simp] theorem State.setAerr_arg0 : (s.setAerr).arg0 = s.arg0 := rfl
@[simp] theorem State.setAerr_resCount : (s.setAerr).resCount = s.resCount := rfl
@[simp] theorem State.setAerr_resRank : (s.setAerr).resRank = s.resRank := rfl
@[simp] theorem State.setAerr_resFlag : (s.setAerr).resFlag = s.resFlag := rfl
@[simp] theorem State.setAerr_dsel : (s.setAerr).dsel = s.dsel := rfl
@[simp] theorem State.setAerr_didx : (s.setAerr).didx = s.didx := rfl
@[simp] theorem State.setAerr_e : (s.setAerr).e = s.e := rfl
@[simp] theorem State.setAerr_p : (s.setAerr).p = s.p := rfl
@[simp] theorem State.setAerr_m : (s.setAerr).m = s.m := rfl
@[simp] theorem State.setAerr_sup : (s.setAerr).sup = s.sup := rfl
@[simp] theorem State.setAerr_pend : (s.setAerr).pend = s.pend := rfl
@[simp] theorem State.setAerr_inbox : (s.setAerr).inbox = s.inbox := rfl
@[simp] theorem State.setAerr_rdata : (s.setAerr).rdata = s.rdata := rfl

/-! ## putM -/

@[simp] theorem State.putM_caps (r : Fin 8) (A : Mat) : (s.putM r A).caps = s.caps := rfl
@[simp] theorem State.putM_ctrl (r : Fin 8) (A : Mat) : (s.putM r A).ctrl = s.ctrl := rfl
@[simp] theorem State.putM_status (r : Fin 8) (A : Mat) : (s.putM r A).status = s.status := rfl
@[simp] theorem State.putM_errcmd (r : Fin 8) (A : Mat) : (s.putM r A).errcmd = s.errcmd := rfl
@[simp] theorem State.putM_cfgM (r : Fin 8) (A : Mat) : (s.putM r A).cfgM = s.cfgM := rfl
@[simp] theorem State.putM_cfgFmod (r : Fin 8) (A : Mat) : (s.putM r A).cfgFmod = s.cfgFmod := rfl
@[simp] theorem State.putM_cfgN (r : Fin 8) (A : Mat) : (s.putM r A).cfgN = s.cfgN := rfl
@[simp] theorem State.putM_arg0 (r : Fin 8) (A : Mat) : (s.putM r A).arg0 = s.arg0 := rfl
@[simp] theorem State.putM_resCount (r : Fin 8) (A : Mat) : (s.putM r A).resCount = s.resCount := rfl
@[simp] theorem State.putM_resRank (r : Fin 8) (A : Mat) : (s.putM r A).resRank = s.resRank := rfl
@[simp] theorem State.putM_resFlag (r : Fin 8) (A : Mat) : (s.putM r A).resFlag = s.resFlag := rfl
@[simp] theorem State.putM_dsel (r : Fin 8) (A : Mat) : (s.putM r A).dsel = s.dsel := rfl
@[simp] theorem State.putM_didx (r : Fin 8) (A : Mat) : (s.putM r A).didx = s.didx := rfl
@[simp] theorem State.putM_e (r : Fin 8) (A : Mat) : (s.putM r A).e = s.e := rfl
@[simp] theorem State.putM_p (r : Fin 8) (A : Mat) : (s.putM r A).p = s.p := rfl
@[simp] theorem State.putM_m (r : Fin 8) (A : Mat) : (s.putM r A).m = s.m.set r A := rfl
@[simp] theorem State.putM_sup (r : Fin 8) (A : Mat) : (s.putM r A).sup = s.sup := rfl
@[simp] theorem State.putM_pend (r : Fin 8) (A : Mat) : (s.putM r A).pend = s.pend := rfl
@[simp] theorem State.putM_inbox (r : Fin 8) (A : Mat) : (s.putM r A).inbox = s.inbox := rfl
@[simp] theorem State.putM_rdata (r : Fin 8) (A : Mat) : (s.putM r A).rdata = s.rdata := rfl

/-! ## resetBlock -/

@[simp] theorem State.resetBlock_caps : s.resetBlock.caps = s.caps := rfl
@[simp] theorem State.resetBlock_ctrl : s.resetBlock.ctrl = (State.resetOf s.caps).ctrl := rfl
@[simp] theorem State.resetBlock_status : s.resetBlock.status = (State.resetOf s.caps).status := rfl
@[simp] theorem State.resetBlock_errcmd : s.resetBlock.errcmd = (State.resetOf s.caps).errcmd := rfl
@[simp] theorem State.resetBlock_cfgM : s.resetBlock.cfgM = (State.resetOf s.caps).cfgM := rfl
@[simp] theorem State.resetBlock_cfgFmod : s.resetBlock.cfgFmod = (State.resetOf s.caps).cfgFmod := rfl
@[simp] theorem State.resetBlock_cfgN : s.resetBlock.cfgN = (State.resetOf s.caps).cfgN := rfl
@[simp] theorem State.resetBlock_arg0 : s.resetBlock.arg0 = (State.resetOf s.caps).arg0 := rfl
@[simp] theorem State.resetBlock_resCount : s.resetBlock.resCount = (State.resetOf s.caps).resCount := rfl
@[simp] theorem State.resetBlock_resRank : s.resetBlock.resRank = (State.resetOf s.caps).resRank := rfl
@[simp] theorem State.resetBlock_resFlag : s.resetBlock.resFlag = (State.resetOf s.caps).resFlag := rfl
@[simp] theorem State.resetBlock_dsel : s.resetBlock.dsel = (State.resetOf s.caps).dsel := rfl
@[simp] theorem State.resetBlock_didx : s.resetBlock.didx = (State.resetOf s.caps).didx := rfl
@[simp] theorem State.resetBlock_e : s.resetBlock.e = (State.resetOf s.caps).e := rfl
@[simp] theorem State.resetBlock_p : s.resetBlock.p = (State.resetOf s.caps).p := rfl
@[simp] theorem State.resetBlock_m : s.resetBlock.m = (State.resetOf s.caps).m := rfl
@[simp] theorem State.resetBlock_sup : s.resetBlock.sup = (State.resetOf s.caps).sup := rfl
@[simp] theorem State.resetBlock_pend : s.resetBlock.pend = (State.resetOf s.caps).pend := rfl
@[simp] theorem State.resetBlock_inbox : s.resetBlock.inbox = s.inbox := rfl
@[simp] theorem State.resetBlock_rdata : s.resetBlock.rdata = s.rdata := rfl

end Sys2Proof.Machine
end

