-- ==== Sys2Proof/Laws/Storage.lean ====
section
/-! SUPPORT. The laws of the storage files: the canonical form of memories and polynomials, a read after a write, and what a register can
hold of a value (10_state.md R40-R43). -/

namespace Sys2Proof.Machine

/-! ## Canonical lists -/

@[simp] theorem Memory.wf_nil : Memory.wf [] := by simp [Memory.wf]

theorem Memory.wf_cons_iff (x : Nat) (xs : List Nat) : Memory.wf (x :: xs) ↔ Memory.wf xs ∧ (xs = [] → x ≠ 0) := by
  cases xs <;> simp [Memory.wf]

theorem consTrim_wf {xs : List Nat} (x : Nat) (h : Memory.wf xs) : Memory.wf (consTrim x xs) := by
  unfold consTrim
  split
  · simp
  · rename_i hx
    rw [Memory.wf_cons_iff]
    exact ⟨h, fun hn h0 => hx ⟨h0, hn⟩⟩

@[simp] theorem norm_wf (l : List Nat) : Memory.wf (norm l) := by
  induction l with
  | nil => simp [norm]
  | cons x xs ih => exact consTrim_wf x ih

theorem norm_of_wf {l : List Nat} (h : Memory.wf l) : norm l = l := by
  induction l with
  | nil => rfl
  | cons x xs ih =>
    obtain ⟨hxs, hx⟩ := (Memory.wf_cons_iff x xs).1 h
    simp only [norm, ih hxs, consTrim]
    rw [if_neg]
    exact fun hc => hx hc.2 hc.1

@[simp] theorem norm_norm (l : List Nat) : norm (norm l) = norm l := norm_of_wf (norm_wf l)

@[simp] theorem consTrim_entry_zero (x : Nat) (xs : List Nat) : (consTrim x xs)[0]?.getD 0 = x := by
  unfold consTrim
  split
  · rename_i h
    simp [h.1]
  · rfl

@[simp] theorem consTrim_entry_succ (x : Nat) (xs : List Nat) (i : Nat) :
    (consTrim x xs)[i + 1]?.getD 0 = xs[i]?.getD 0 := by
  unfold consTrim
  split
  · rename_i h
    simp [h.2]
  · rfl

theorem consTrim_length_le (x : Nat) (xs : List Nat) : (consTrim x xs).length ≤ xs.length + 1 := by
  unfold consTrim
  split <;> simp

theorem mem_consTrim {x c : Nat} {xs : List Nat} (h : c ∈ consTrim x xs) : c = x ∨ c ∈ xs := by
  unfold consTrim at h
  split at h <;> simp_all

/-- Normalising a list keeps every coefficient. -/
@[simp] theorem norm_entry (l : List Nat) (i : Nat) : (norm l)[i]?.getD 0 = l[i]?.getD 0 := by
  induction l generalizing i with
  | nil => rfl
  | cons x xs ih => cases i <;> simp [norm, ih]

@[simp] theorem coeff_norm (l : List Nat) (i : Nat) : coeff (norm l) i = coeff l i := by simp [coeff]

theorem norm_length_le (l : List Nat) : (norm l).length ≤ l.length := by
  induction l with
  | nil => simp [norm]
  | cons x xs ih =>
    have := consTrim_length_le x (norm xs)
    simp only [norm, List.length_cons]
    omega

theorem mem_of_mem_norm {c : Nat} {l : List Nat} (h : c ∈ norm l) : c ∈ l := by
  induction l with
  | nil => simp [norm] at h
  | cons x xs ih =>
    rcases mem_consTrim h with h | h
    · simp [h]
    · exact List.mem_cons_of_mem _ (ih h)

/-- Canonical lists with the same entries are equal data. -/
theorem Memory.ext_of_wf {a b : Memory} (ha : Memory.wf a) (hb : Memory.wf b)
    (h : ∀ i, Memory.read a i = Memory.read b i) : a = b := by
  have key : ∀ c : List Nat, Memory.wf c → (∀ i, c.getD i 0 = 0) → c = [] := by
    intro c hc hz
    induction c with
    | nil => rfl
    | cons x xs ih =>
      obtain ⟨hxs, hx⟩ := (Memory.wf_cons_iff x xs).1 hc
      have hnil := ih hxs fun i => hz (i + 1)
      exact absurd (hz 0) (hx hnil)
  unfold Memory.read at h
  induction a generalizing b with
  | nil => exact (key b hb fun i => by rw [← h i]; rfl).symm
  | cons x xs ih =>
    cases b with
    | nil => exact key _ ha fun i => h i
    | cons y ys =>
      have h0 : x = y := h 0
      have := ih ((Memory.wf_cons_iff x xs).1 ha).1 ((Memory.wf_cons_iff y ys).1 hb).1 fun i => h (i + 1)
      rw [h0, this]

/-! ## Memories -/

/-- A read after a write: the value at the place written, every other place as before. -/
theorem Memory.read_write (mem : Memory) (i j v : Nat) :
    Memory.read (Memory.write mem i v) j = if j = i then v else Memory.read mem j := by
  simp only [Memory.read, List.getD_eq_getElem?_getD]
  induction i generalizing mem j with
  | zero => cases mem <;> cases j <;> simp [Memory.write]
  | succ i ih => cases mem <;> cases j <;> simp [Memory.write, ih]

theorem Memory.write_wf {mem : Memory} (i v : Nat) (h : Memory.wf mem) : Memory.wf (Memory.write mem i v) := by
  induction i generalizing mem with
  | zero =>
    cases mem with
    | nil => exact consTrim_wf v Memory.wf_nil
    | cons x xs => exact consTrim_wf v ((Memory.wf_cons_iff x xs).1 h).1
  | succ i ih =>
    cases mem with
    | nil => exact consTrim_wf 0 (ih h)
    | cons x xs => exact consTrim_wf x (ih ((Memory.wf_cons_iff x xs).1 h).1)

theorem Memory.write_length_le (mem : Memory) (i v : Nat) :
    (Memory.write mem i v).length ≤ max mem.length (i + 1) := by
  induction i generalizing mem with
  | zero =>
    cases mem with
    | nil => exact consTrim_length_le v []
    | cons x xs =>
      have := consTrim_length_le v xs
      simp only [Memory.write, List.length_cons]
      omega
  | succ i ih =>
    cases mem with
    | nil =>
      have h1 := consTrim_length_le 0 (Memory.write [] i v)
      have h2 := ih []
      simp only [Memory.write, List.length_nil] at *
      omega
    | cons x xs =>
      have h1 := consTrim_length_le x (Memory.write xs i v)
      have h2 := ih xs
      simp only [Memory.write, List.length_cons] at *
      omega

theorem Memory.mem_write {mem : Memory} {i v c : Nat} (h : c ∈ Memory.write mem i v) : c = v ∨ c = 0 ∨ c ∈ mem := by
  induction i generalizing mem with
  | zero =>
    cases mem with
    | nil => rcases mem_consTrim h with h | h <;> simp_all
    | cons x xs => rcases mem_consTrim h with h | h <;> simp_all
  | succ i ih =>
    cases mem with
    | nil =>
      rcases mem_consTrim h with h | h
      · exact .inr (.inl h)
      · exact ih h
    | cons x xs =>
      rcases mem_consTrim h with h | h
      · simp [h]
      · rcases ih h with h | h | h <;> simp [h]

/-- The first `n` entries of a memory are `n` many. -/
@[simp] theorem Memory.firstEntries_length (mem : Memory) (n : Nat) : (Memory.firstEntries mem n).length = n := by
  simp [Memory.firstEntries]
  omega

/-! ## What a register holds -/

theorem element_lt (b : Build) (v : Nat) : element b v < 2 ^ b.mmax := Nat.mod_lt _ (Nat.two_pow_pos _)

theorem element_of_lt {b : Build} {v : Nat} (h : v < 2 ^ b.mmax) : element b v = v := Nat.mod_eq_of_lt h

/-- Whatever is written to a polynomial register, the register holds a well-formed polynomial of the build. -/
theorem storedPoly_ok (b : Build) (q : Poly) : PolyOk b (storedPoly b q) := by
  refine ⟨norm_wf _, ?_, ?_⟩
  · refine (norm_length_le _).trans ?_
    simp
  · intro c hc
    obtain ⟨x, -, rfl⟩ := List.mem_map.1 (mem_of_mem_norm hc)
    exact element_lt b x

/-- A polynomial of the build is stored as it is. -/
theorem storedPoly_of_ok {b : Build} {q : Poly} (h : PolyOk b q) : storedPoly b q = q := by
  obtain ⟨hw, hl, hc⟩ := h
  have hm : (q.take b.pcap).map (element b) = q := by
    rw [List.take_of_length_le hl, List.map_congr_left fun c h => element_of_lt (hc c h), List.map_id']
  rw [storedPoly, hm, norm_of_wf hw]

@[simp] theorem Mat.masked_rows (A : Mat) : A.masked.rows = A.rows := by simp [Mat.masked, Mat.rows]

@[simp] theorem Mat.masked_cols (A : Mat) : A.masked.cols = A.cols := rfl

theorem Mat.masked_lt (A : Mat) : ∀ r ∈ A.masked.row, r < 2 ^ A.masked.cols := by
  intro r hr
  obtain ⟨x, -, rfl⟩ := List.mem_map.1 hr
  exact Nat.mod_lt _ (Nat.two_pow_pos _)

/-- A matrix with no bit outside its columns is stored as it is. -/
theorem Mat.masked_of_lt {A : Mat} (h : ∀ r ∈ A.row, r < 2 ^ A.cols) : A.masked = A := by
  have : A.row.map (· % 2 ^ A.cols) = A.row := by
    rw [List.map_congr_left fun r hr => Nat.mod_eq_of_lt (h r hr), List.map_id']
  rw [Mat.masked, this]

/-- A matrix register keeps its form under any write whose dimensions fit the build. -/
theorem Mat.masked_ok {b : Build} {A : Mat} (hr : A.rows ≤ b.rmax) (hw : A.rows < 2 ^ 32) (hc : A.cols ≤ b.cmax) :
    MatOk b A.masked :=
  ⟨by simpa using hr, by simpa using hw, hc, Mat.masked_lt A⟩

/-- The storage right after reset is well formed. -/
theorem resetOf_storageOk (b : Build) : (State.resetOf b).StorageOk := by
  refine ⟨fun i => ?_, fun i => ?_, fun i => ?_, ?_⟩ <;> simp [State.resetOf, PolyOk, MatOk, SupOk, Mat.rows]

end Sys2Proof.Machine
end

