-- ==== Sys2Proof/Laws/Algebra.lean ====
section
/-! SUPPORT. Coefficients and canonical forms of the polynomial functions, and the dimensions of the matrix functions. -/

namespace Sys2Proof.Machine

/-! ## Polynomials -/

@[simp] theorem coeff_nil (i : Nat) : coeff [] i = 0 := by simp [coeff]

@[simp] theorem coeff_cons_zero (a : Nat) (A : Poly) : coeff (a :: A) 0 = a := by simp [coeff]

@[simp] theorem coeff_cons_succ (a : Nat) (A : Poly) (i : Nat) : coeff (a :: A) (i + 1) = coeff A i := by simp [coeff]

@[simp] theorem coeff_consTrim_zero (a : Nat) (A : Poly) : coeff (consTrim a A) 0 = a := by simp [coeff]

@[simp] theorem coeff_consTrim_succ (a : Nat) (A : Poly) (i : Nat) : coeff (consTrim a A) (i + 1) = coeff A i := by
  simp [coeff]

/-- The coefficients of a sum (42_polynomial.md R151). -/
@[simp] theorem coeff_padd (A B : Poly) (i : Nat) : coeff (padd A B) i = coeff A i ^^^ coeff B i := by
  induction A generalizing B i with
  | nil => simp [padd]
  | cons a A ih =>
    cases B with
    | nil => simp [padd]
    | cons b B => cases i <;> simp [padd, gadd, ih]

theorem padd_wf (A B : Poly) : Memory.wf (padd A B) := by
  induction A generalizing B with
  | nil => exact norm_wf B
  | cons a A ih =>
    cases B with
    | nil => exact norm_wf _
    | cons b B => exact consTrim_wf _ (ih B)

/-- The coefficients of `x^s · A`. -/
theorem coeff_pshift (s : Nat) (A : Poly) (i : Nat) : coeff (pshift s A) i = if i < s then 0 else coeff A (i - s) := by
  rw [pshift, coeff_norm]
  split
  · rename_i h
    simp [coeff, List.getElem?_append_left, h]
  · rename_i h
    simp [coeff, List.getElem?_append_right, Nat.not_lt.1 h]

theorem pshift_wf (s : Nat) (A : Poly) : Memory.wf (pshift s A) := norm_wf _

theorem pscale_wf (F : Gf) (c : Nat) (A : Poly) : Memory.wf (pscale F c A) := norm_wf _

theorem pmul_wf (F : Gf) (A B : Poly) : Memory.wf (pmul F A B) := by
  cases A with
  | nil => exact Memory.wf_nil
  | cons a A => exact padd_wf _ _

/-- The remainder of a division is canonical when the dividend is. -/
theorem pdivLoop_wf (F : Gf) (B : Poly) (db : Int) (li n : Nat) (Q R : Poly) (hQ : Memory.wf Q) (hR : Memory.wf R) :
    Memory.wf (pdivLoop F B db li n Q R).1 ∧ Memory.wf (pdivLoop F B db li n Q R).2 := by
  induction n generalizing Q R with
  | zero => exact ⟨hQ, hR⟩
  | succ n ih =>
    simp only [pdivLoop]
    split
    · exact ih _ _ (padd_wf _ _) (padd_wf _ _)
    · exact ⟨hQ, hR⟩

theorem pdivmod_wf (F : Gf) (A B : Poly) : Memory.wf (pdivmod F A B).1 ∧ Memory.wf (pdivmod F A B).2 :=
  pdivLoop_wf F B _ _ _ _ _ Memory.wf_nil (norm_wf A)

/-! ## Matrices -/

@[simp] theorem matMul_rows (A B : Mat) : (matMul A B).rows = A.rows := by simp [matMul, Mat.rows]
@[simp] theorem matMul_cols (A B : Mat) : (matMul A B).cols = B.cols := rfl
@[simp] theorem matAdd_rows (A B : Mat) : (matAdd A B).rows = min A.rows B.rows := by simp [matAdd, Mat.rows]
@[simp] theorem matAdd_cols (A B : Mat) : (matAdd A B).cols = A.cols := rfl
@[simp] theorem matTrans_rows (A : Mat) : (matTrans A).rows = A.cols := by simp [matTrans, Mat.rows]
@[simp] theorem matTrans_cols (A : Mat) : (matTrans A).cols = A.rows := rfl
@[simp] theorem matHcat_rows (A B : Mat) : (matHcat A B).rows = min A.rows B.rows := by simp [matHcat, Mat.rows]
@[simp] theorem matHcat_cols (A B : Mat) : (matHcat A B).cols = A.cols + B.cols := rfl
@[simp] theorem matId_rows (r : Nat) : (matId r).rows = r := by simp [matId, Mat.rows]
@[simp] theorem rightHalf_rows (r : Nat) (rows : List Nat) : (rightHalf r rows).rows = rows.length := by
  simp [rightHalf, Mat.rows]
@[simp] theorem rowVector_rows (bits : List Bool) : (rowVector bits).rows = 1 := rfl
@[simp] theorem rowVector_cols (bits : List Bool) : (rowVector bits).cols = bits.length := rfl

@[simp] theorem swapRows_length (R : List Nat) (p i : Nat) : (swapRows R p i).length = R.length := by simp [swapRows]
@[simp] theorem eliminate_length (R : List Nat) (p col : Nat) : (eliminate R p col).length = R.length := by simp [eliminate]

/-- Elimination keeps the number of rows (43_matrix.md R181). -/
theorem rrefLoop_length (cs R : List Nat) (p : Nat) (piv : List Nat) : (rrefLoop cs R p piv).row.length = R.length := by
  induction cs generalizing R p piv with
  | nil => rfl
  | cons c cs ih =>
    simp only [rrefLoop]
    split
    · rfl
    · split
      · exact ih R p piv
      · simp [ih]

@[simp] theorem rref_length (A : Mat) (cols : Nat) : (rref A cols).row.length = A.rows := rrefLoop_length ..

/-- The bits of a packed list. -/
theorem testBit_packBits (bits : List Bool) (j : Nat) : (packBits bits).testBit j = bits.getD j false := by
  induction bits generalizing j with
  | nil => simp [packBits]
  | cons b bs ih =>
    cases j with
    | zero => cases b <;> simp [packBits, Nat.testBit_zero]
    | succ j =>
      have : (packBits (b :: bs)) / 2 = packBits bs := by cases b <;> (simp [packBits]; try omega)
      rw [Nat.testBit_succ, this, ih]
      simp

theorem packBits_lt (bits : List Bool) : packBits bits < 2 ^ bits.length := by
  induction bits with
  | nil => simp [packBits]
  | cons b bs ih =>
    rw [packBits, List.length_cons, Nat.pow_succ]
    split <;> omega

/-! ## Degrees and products -/

@[simp] theorem polymod2_zero (m f : Nat) : polymod2 m f 0 = 0 := by simp [polymod2, polymod2Loop]

@[simp] theorem gmul_zero (F : Gf) (a : Nat) : gmul F a 0 = 0 := by
  have h (l : List Nat) : l.foldl (fun acc i => if (0 : Nat).testBit i then acc ^^^ (a <<< i) else acc) 0 = 0 := by
    induction l with
    | nil => rfl
    | cons x xs ih => simp
  rw [gmul, clmul, h, polymod2_zero]

@[simp] theorem zero_gmul (F : Gf) (b : Nat) : gmul F 0 b = 0 := by
  have h (l : List Nat) : l.foldl (fun acc i => if b.testBit i then acc ^^^ (0 <<< i) else acc) 0 = 0 := by
    induction l with
    | nil => rfl
    | cons x xs ih => simp
  rw [gmul, clmul, h, polymod2_zero]

/-- Nothing is stored above the degree. -/
theorem coeff_of_deg_lt {A : Poly} {i : Nat} (h : deg A < i) : coeff A i = 0 := by
  rw [← coeff_norm, coeff, List.getD_eq_getElem?_getD, List.getElem?_eq_none (by simp only [deg] at h; omega)]
  rfl

/-- The leading coefficient of a polynomial other than 0 is not 0. -/
theorem coeff_deg_ne_zero {A : Poly} (h : 0 ≤ deg A) : coeff A (deg A).toNat ≠ 0 := by
  have hw := norm_wf A
  have : (deg A).toNat = (norm A).length - 1 := by simp only [deg]; omega
  have hne : (norm A).length ≠ 0 := by simp only [deg] at h; omega
  rw [← coeff_norm, coeff, this, List.getD_eq_getElem?_getD, ← List.getLast?_eq_getElem?]
  cases hl : (norm A).getLast? with
  | none => simp_all
  | some x => intro h0; exact hw (by simp_all)

/-- A product by rows, coefficient by coefficient. -/
theorem coeff_pmul_cons (F : Gf) (a : Nat) (A B : Poly) (k : Nat) :
    coeff (pmul F (a :: A) B) k = gmul F a (coeff B k) ^^^ (if k < 1 then 0 else coeff (pmul F A B) (k - 1)) := by
  rw [pmul, coeff_padd, coeff_pshift, pscale, coeff_norm]
  congr 1
  simp only [coeff, List.getD_eq_getElem?_getD, List.getElem?_map]
  cases B[k]? <;> simp

end Sys2Proof.Machine
end

