-- ==== Sys2Proof/Laws/Control.lean ====
section
/-! SUPPORT. What the shared operations of the command cycle, the host accesses and the step can do, said once for each. -/

namespace Sys2Proof.Machine

/-! ## Checks -/

@[simp] theorem require_true (k : ErrCode) : require true k = .ok () := rfl

@[simp] theorem require_false (k : ErrCode) : require false k = .error k := rfl

/-- A check before the rest of a command: the rest runs if it holds. -/
theorem require_bind {α : Type} (c : Bool) (k : ErrCode) (rest : Unit → Except ErrCode α) :
    (require c k >>= rest) = if c then rest () else .error k := by
  cases c <;> rfl

@[simp] theorem except_ok_bind {α β : Type} (a : α) (f : α → Except ErrCode β) : ((.ok a : Except ErrCode α) >>= f) = f a := rfl

@[simp] theorem except_error_bind {α β : Type} (k : ErrCode) (f : α → Except ErrCode β) :
    ((.error k : Except ErrCode α) >>= f) = .error k := rfl

/-- A sequence that succeeds: both parts succeed. -/
theorem bind_eq_ok {α β : Type} {x : Except ErrCode α} {f : α → Except ErrCode β} {b : β} :
    (x >>= f) = .ok b ↔ ∃ a, x = .ok a ∧ f a = .ok b := by
  cases x <;> simp

theorem require_eq_ok {c : Bool} {k : ErrCode} {u : Unit} : require c k = .ok u ↔ c = true := by
  cases c <;> simp

/-! ## Failures and completion -/

/-- What a recorded failure is (60_exceptions.md R242), in the words of `failureRecord`. -/
theorem fail_eq_failureRecord (s : State) (k : ErrCode) (w : Word) : s.fail k w = failureRecord s k w := by
  cases h : s.status.err <;> simp [State.fail, State.recordFailure, State.finish, failureRecord, h]

/-- A command that passes every check completes with the writes of its body. -/
theorem complete_ok {i : Instr} {s u : State} {body : Except ErrCode State} (hw : i.wellFormed = true)
    (hf : needsField i = true → s.status.cfgValid = true) (hb : body = .ok u) : complete i s body = .next u.finish := by
  have hc : (!needsField i || s.status.cfgValid) = true := by cases h : needsField i <;> simp_all
  simp [complete, commandOutcome, hw, hc, hb]

/-- A command whose body fails records the failure and writes nothing. -/
theorem complete_error {i : Instr} {s : State} {k : ErrCode} {body : Except ErrCode State} (hw : i.wellFormed = true)
    (hf : needsField i = true → s.status.cfgValid = true) (hb : body = .error k) :
    complete i s body = .next (s.fail k (encode i)) := by
  have hc : (!needsField i || s.status.cfgValid) = true := by cases h : needsField i <;> simp_all
  simp [complete, commandOutcome, hw, hc, hb]

/-- A command with duplicate destinations fails ILLEGAL_FIELD (30_encoding.md R93). -/
theorem complete_illFormed {i : Instr} {s : State} {body : Except ErrCode State} (hw : i.wellFormed = false) :
    complete i s body = .next (s.fail .illegalField (encode i)) := by
  simp [complete, commandOutcome, hw]

/-- A legal command that needs an active field fails NOT_CONFIGURED without one (40_system.md R112). -/
theorem complete_notConfigured {i : Instr} {s : State} {body : Except ErrCode State} (hw : i.wellFormed = true)
    (hf : needsField i = true) (hc : s.status.cfgValid = false) :
    complete i s body = .next (s.fail .notConfigured (encode i)) := by
  simp [complete, commandOutcome, hw, hf, hc]

/-- Everything a completion can be: the body's writes, or the record of one failure. -/
theorem complete_cases {i : Instr} {s t : State} {body : Except ErrCode State} (h : complete i s body = .next t) :
    (∃ u, i.wellFormed = true ∧ (needsField i = true → s.status.cfgValid = true) ∧ body = .ok u ∧ t = u.finish) ∨
    (∃ k, commandOutcome i s body = .error k ∧ t = s.fail k (encode i)) := by
  unfold complete at h
  split at h
  · rename_i u hu
    simp only [commandOutcome, bind_eq_ok, require_eq_ok] at hu
    obtain ⟨-, hw, -, hf, hb⟩ := hu
    refine .inl ⟨u, hw, fun hn => by simpa [hn] using hf, hb, by simpa using h.symm⟩
  · rename_i k hk
    exact .inr ⟨k, hk, by simpa using h.symm⟩

/-! ## The engine and the step -/

/-- Everything the engine's move can be. -/
theorem engineMove_cases (s : State) :
    (s.pend = .none ∧ engineMove s = .next s) ∨
    (s.pend = .init ∧ engineMove s = .next { s with pend := .none }) ∨
    (∃ w zs, s.pend = .run w zs ∧ engineMove s = runWord w s) := by
  unfold engineMove
  split
  · rename_i h
    exact .inl ⟨h, rfl⟩
  · rename_i h
    exact .inr (.inl ⟨h, rfl⟩)
  · rename_i w zs h
    exact .inr (.inr ⟨w, zs, h, rfl⟩)

/-- Everything a step can be: the engine's move when no event is to come, else the first event. -/
theorem step_eq (s : State) :
    step s =
      match s.inbox with
      | [] => engineMove s
      | .access a :: rest => .next (hostAccess { s with inbox := rest } a)
      | .resetInput :: rest => .next (State.resetBlock { s with inbox := rest })
      | .engineTurn :: rest => engineMove { s with inbox := rest } := by
  unfold step advance
  rcases s.inbox with - | ⟨- | - | -, rest⟩ <;> rfl

/-! ## Host accesses -/

/-- An undefined access changes only AERR and, for a read, the value returned (20_memory.md R62). -/
theorem hostAccess_undefined {s : State} {a : Access} (h : a.defined = false) :
    hostAccess s a = s.setAerr ∨ hostAccess s a = { s.setAerr with rdata := 0 } := by
  unfold hostAccess
  rw [h]
  cases a.kind <;> simp

@[simp] theorem autoInc_caps (s : State) : s.autoInc.caps = s.caps := by unfold State.autoInc; split <;> rfl
@[simp] theorem autoInc_inbox (s : State) : s.autoInc.inbox = s.inbox := by unfold State.autoInc; split <;> rfl
@[simp] theorem autoInc_status (s : State) : s.autoInc.status = s.status := by unfold State.autoInc; split <;> rfl
@[simp] theorem autoInc_pend (s : State) : s.autoInc.pend = s.pend := by unfold State.autoInc; split <;> rfl
@[simp] theorem autoInc_errcmd (s : State) : s.autoInc.errcmd = s.errcmd := by unfold State.autoInc; split <;> rfl
@[simp] theorem autoInc_ctrl (s : State) : s.autoInc.ctrl = s.ctrl := by unfold State.autoInc; split <;> rfl
@[simp] theorem autoInc_cfgM (s : State) : s.autoInc.cfgM = s.cfgM := by unfold State.autoInc; split <;> rfl
@[simp] theorem autoInc_cfgFmod (s : State) : s.autoInc.cfgFmod = s.cfgFmod := by unfold State.autoInc; split <;> rfl
@[simp] theorem autoInc_e (s : State) : s.autoInc.e = s.e := by unfold State.autoInc; split <;> rfl
@[simp] theorem autoInc_p (s : State) : s.autoInc.p = s.p := by unfold State.autoInc; split <;> rfl
@[simp] theorem autoInc_m (s : State) : s.autoInc.m = s.m := by unfold State.autoInc; split <;> rfl
@[simp] theorem autoInc_sup (s : State) : s.autoInc.sup = s.sup := by unfold State.autoInc; split <;> rfl

/-- A write of an element leaves the events and the build alone. -/
theorem writeElement_inbox_caps (s : State) (v : Word) (el : PortElement) :
    (writeElement s v el).inbox = s.inbox ∧ (writeElement s v el).caps = s.caps := by
  refine ⟨?_, ?_⟩ <;> cases el <;> simp only [writeElement] <;> (try split) <;> rfl

/-- A host access consumes no event and never changes the build (10_state.md R23, R24). -/
theorem hostAccess_inbox_caps (s : State) (a : Access) :
    (hostAccess s a).inbox = s.inbox ∧ (hostAccess s a).caps = s.caps := by
  have hd : ∀ v, (writeData s v).inbox = s.inbox ∧ (writeData s v).caps = s.caps := by
    intro v
    unfold writeData
    split
    · exact ⟨rfl, rfl⟩
    · split
      · simp
      · rename_i el _
        simpa using writeElement_inbox_caps s v el
  have hr : (readData s).2.inbox = s.inbox ∧ (readData s).2.caps = s.caps := by
    unfold readData
    split
    · exact ⟨rfl, rfl⟩
    · split <;> simp
  have hb : ∀ off v, (busWrite s off v).inbox = s.inbox ∧ (busWrite s off v).caps = s.caps := by
    intro off v
    unfold busWrite
    split <;>
      first
      | exact hd v
      | (simp only [writeCtrl, writeCmd, writeCfgM, writeCfgFmod, writeCfgN, writeArg0, State.writeStatus]
         repeat' split
         all_goals simp)
  unfold hostAccess
  split
  · split
    · simp only [busRead]
      split
      · exact hr
      · exact ⟨rfl, rfl⟩
    · exact hb _ _
  · split <;> exact ⟨rfl, rfl⟩

end Sys2Proof.Machine
end

