-- ==== Sys2Proof/Laws/Encoding.lean ====
section
/-! SUPPORT. The fields of a packed command word (30_encoding.md R91, R97) and of the four byte lanes (20_memory.md R61). -/

namespace Sys2Proof

/-- Bit `i` of a field placed at bit `lo`. -/
theorem getLsbD_atBit {n : Nat} (v : BitVec n) (lo i : Nat) :
    (atBit v lo).getLsbD i = (decide (i < 32) && decide (lo ≤ i) && v.getLsbD (i - lo)) := by
  by_cases h : i < 32 <;> by_cases hl : lo ≤ i
  · simp [atBit, h, hl, Nat.not_lt.2 hl]
  · simp [atBit, h, hl, Nat.lt_of_not_le hl]
  · simp [atBit, h]
  · simp [atBit, h]

/-- Bit `i` of a field placed at bit `lo`. -/
theorem getElem_atBit {n : Nat} (v : BitVec n) (lo i : Nat) (hi : i < 32) :
    (atBit v lo)[i] = (decide (lo ≤ i) && v.getLsbD (i - lo)) := by
  rw [← BitVec.getLsbD_eq_getElem hi, getLsbD_atBit]
  simp [hi]

@[simp] theorem wordOp_packWord (op : Byte) (a b c d e : BitVec 4) : wordOp (packWord op a b c d e) = op := by
  ext i hi
  interval_cases i <;> simp [wordOp, packWord, getElem_atBit]

@[simp] theorem wordField_packWord_a (op : Byte) (a b c d e : BitVec 4) : wordField (packWord op a b c d e) 0 = a := by
  ext i hi
  interval_cases i <;> simp [wordField, packWord, getElem_atBit]

@[simp] theorem wordField_packWord_b (op : Byte) (a b c d e : BitVec 4) : wordField (packWord op a b c d e) 1 = b := by
  ext i hi
  interval_cases i <;> simp [wordField, packWord, getElem_atBit]

@[simp] theorem wordField_packWord_c (op : Byte) (a b c d e : BitVec 4) : wordField (packWord op a b c d e) 2 = c := by
  ext i hi
  interval_cases i <;> simp [wordField, packWord, getElem_atBit]

@[simp] theorem wordField_packWord_d (op : Byte) (a b c d e : BitVec 4) : wordField (packWord op a b c d e) 3 = d := by
  ext i hi
  interval_cases i <;> simp [wordField, packWord, getElem_atBit]

@[simp] theorem wordField_packWord_e (op : Byte) (a b c d e : BitVec 4) : wordField (packWord op a b c d e) 4 = e := by
  ext i hi
  interval_cases i <;> simp [wordField, packWord, getElem_atBit]

/-- The reserved bits of every packed word are 0. -/
@[simp] theorem wordField_packWord_rsv (op : Byte) (a b c d e : BitVec 4) : wordField (packWord op a b c d e) 5 = 0#4 := by
  ext i hi
  interval_cases i <;> simp [wordField, packWord, getElem_atBit]

/-- The opcode byte of a command's word is its opcode's. -/
@[simp] theorem wordOp_encode (i : Instr) : wordOp (encode i) = i.opcode.byte := wordOp_packWord ..

/-- The reserved bits of a command's word are 0. -/
@[simp] theorem wordField_encode_rsv (i : Instr) : wordField (encode i) 5 = 0#4 := wordField_packWord_rsv ..

/-- The four lanes of a word carry the word. -/
theorem wordOfLanes_lanes (v : Word) :
    wordOfLanes (laneOfWord v 0) (laneOfWord v 1) (laneOfWord v 2) (laneOfWord v 3) = v := by
  ext i hi
  interval_cases i <;> simp [wordOfLanes, laneOfWord, getElem_atBit]

end Sys2Proof
end

