-- ==== Sys2Proof/Laws/PerInstr.lean ====
section
/-! SUPPORT. Per-instruction families (LAWS.json): one lemma per constructor of Instr. -/

namespace Sys2Proof.Laws.OpcodeField

/-- The word of a command names its opcode, and its reserved bits 31:28 are 0 (30_encoding.md R91, R96, R97). -/
def Statement (i : Instr) : Prop :=
  Opcode.ofByte (wordOp (encode i)) = some i.opcode ∧ wordField (encode i) 5 = 0#4

/-- The family holds of a command whose opcode byte names its opcode. -/
theorem of_byte {i : Instr} (h : Opcode.ofByte i.opcode.byte = some i.opcode) : Statement i :=
  ⟨by rw [wordOp_encode, h], wordField_encode_rsv i⟩

theorem nop : Statement .nop := of_byte (by rfl)
theorem config : Statement .config := of_byte (by rfl)
theorem supinit : Statement .supinit := of_byte (by rfl)
theorem emov (a b : EReg) : Statement (.emov a b) := of_byte (by rfl)
theorem pmov (a b : PReg) : Statement (.pmov a b) := of_byte (by rfl)
theorem mmov (a b : MReg) : Statement (.mmov a b) := of_byte (by rfl)
theorem fadd (a b c : EReg) : Statement (.fadd a b c) := of_byte (by rfl)
theorem fmul (a b c : EReg) : Statement (.fmul a b c) := of_byte (by rfl)
theorem finv (a b : EReg) : Statement (.finv a b) := of_byte (by rfl)
theorem fpow (a b c : EReg) : Statement (.fpow a b c) := of_byte (by rfl)
theorem fsqrt (a b : EReg) : Statement (.fsqrt a b) := of_byte (by rfl)
theorem padd (a b c : PReg) : Statement (.padd a b c) := of_byte (by rfl)
theorem pmul (a b c : PReg) : Statement (.pmul a b c) := of_byte (by rfl)
theorem pdivmod (a b c d : PReg) : Statement (.pdivmod a b c d) := of_byte (by rfl)
theorem pmod (a b c : PReg) : Statement (.pmod a b c) := of_byte (by rfl)
theorem pinvmod (a b c : PReg) : Statement (.pinvmod a b c) := of_byte (by rfl)
theorem psplit (a b c : PReg) : Statement (.psplit a b c) := of_byte (by rfl)
theorem psqrtmod (a b c : PReg) : Statement (.psqrtmod a b c) := of_byte (by rfl)
theorem peval (a : EReg) (b : PReg) (c : EReg) : Statement (.peval a b c) := of_byte (by rfl)
theorem proots (a : MReg) (b : PReg) : Statement (.proots a b) := of_byte (by rfl)
theorem pirred (a : PReg) : Statement (.pirred a) := of_byte (by rfl)
theorem mmul (a b c : MReg) : Statement (.mmul a b c) := of_byte (by rfl)
theorem madd (a b c : MReg) : Statement (.madd a b c) := of_byte (by rfl)
theorem mtrans (a b : MReg) : Statement (.mtrans a b) := of_byte (by rfl)
theorem mhcat (a b c : MReg) : Statement (.mhcat a b c) := of_byte (by rfl)
theorem mrowred (a b : MReg) : Statement (.mrowred a b) := of_byte (by rfl)
theorem mnull (a b : MReg) : Statement (.mnull a b) := of_byte (by rfl)
theorem minv (a b : MReg) : Statement (.minv a b) := of_byte (by rfl)
theorem mdet (a : MReg) : Statement (.mdet a) := of_byte (by rfl)
theorem pcheck (a : MReg) (b : PReg) : Statement (.pcheck a b) := of_byte (by rfl)
theorem synd (a : PReg) (b : MReg) (c : PReg) : Statement (.synd a b c) := of_byte (by rfl)
theorem latred (a b c d : PReg) : Statement (.latred a b c d) := of_byte (by rfl)
theorem patterson (a b : MReg) (c d : PReg) : Statement (.patterson a b c d) := of_byte (by rfl)
theorem decode (a b : MReg) (c : PReg) (d e : MReg) : Statement (.decode a b c d e) := of_byte (by rfl)

end Sys2Proof.Laws.OpcodeField
end

