-- ==== Sys2Proof/Machine/Assembler.lean ====
section
/-! DEFINITION. Command syntax and pseudo-instructions (30_encoding.md R100, R101): text to command. -/

namespace Sys2Proof.Machine

/-- The command a pseudo-instruction expands to (30_encoding.md R101). -/
def expandPseudo : Pseudo → Instr
  | .fsub a b c => .fadd a b c
  | .psub a b c => .padd a b c
  | .fsqr a b => .fmul a b b
  | .psqr a b => .pmul a b b
  | .ezero a => .fadd a a a
  | .pzero a => .padd a a a

/-- The mnemonic of an opcode (30_encoding.md R96). -/
def mnemonicOf : Opcode → String
  | .nop => "NOP" | .config => "CONFIG" | .supinit => "SUPINIT"
  | .emov => "EMOV" | .pmov => "PMOV" | .mmov => "MMOV"
  | .fadd => "FADD" | .fmul => "FMUL" | .finv => "FINV" | .fpow => "FPOW" | .fsqrt => "FSQRT"
  | .padd => "PADD" | .pmul => "PMUL" | .pdivmod => "PDIVMOD" | .pmod => "PMOD" | .pinvmod => "PINVMOD"
  | .psplit => "PSPLIT" | .psqrtmod => "PSQRTMOD" | .peval => "PEVAL" | .proots => "PROOTS" | .pirred => "PIRRED"
  | .mmul => "MMUL" | .madd => "MADD" | .mtrans => "MTRANS" | .mhcat => "MHCAT"
  | .mrowred => "MROWRED" | .mnull => "MNULL" | .minv => "MINV" | .mdet => "MDET"
  | .pcheck => "PCHECK" | .synd => "SYND" | .latred => "LATRED" | .patterson => "PATTERSON" | .decode => "DECODE"

/-- A capital letter for a small one. -/
def upperChar (c : Char) : Char := if 'a' ≤ c ∧ c ≤ 'z' then Char.ofNat (c.toNat - 32) else c

/-- Spaces and tabs at both ends dropped. -/
def trimChars (cs : List Char) : List Char :=
  let blank := fun c : Char => c = ' ' ∨ c = '\t'
  ((cs.dropWhile (blank ·)).reverse.dropWhile (blank ·)).reverse

/-- The parts of a text between the occurrences of `sep`. -/
def splitChars (sep : Char) : List Char → List (List Char)
  | [] => [[]]
  | c :: cs =>
    match splitChars sep cs with
    | [] => [[c]]
    | part :: parts => if c = sep then [] :: part :: parts else (c :: part) :: parts

/-- The value of a string of decimal digits, `none` on any other character. -/
def decimalOf : List Char → Nat → Option Nat
  | [], acc => some acc
  | c :: cs, acc => if '0' ≤ c ∧ c ≤ '9' then decimalOf cs (10 * acc + (c.toNat - 48)) else none

/-- The number of a register name `e0` to `e15`, `p0` to `p15`, `m0` to `m7` of the wanted letter (30_encoding.md R100); a capital
letter and leading zeros are accepted too (DESIGN CHOICE, assumption 18). -/
def registerNumber (letter : Char) (limit : Nat) : List Char → Option Nat
  | c :: d :: ds =>
    if upperChar c = letter then
      match decimalOf (d :: ds) 0 with
      | some n => if n < limit then some n else none
      | none => none
    else none
  | _ => none

/-- The operand of a field of a kind. -/
def operandNumber : FieldKind → List Char → Option Nat
  | .e, cs => registerNumber 'E' 16 cs
  | .p, cs => registerNumber 'P' 16 cs
  | .m, cs => registerNumber 'M' 8 cs
  | .unused, _ => none

/-- The operands of the used fields in order, exactly as many as there are used fields. -/
def operandNumbers : List FieldKind → List (List Char) → Option (List Nat)
  | [], [] => some []
  | [], _ :: _ => none
  | .unused :: ks, ops => operandNumbers ks ops
  | _ :: _, [] => none
  | k :: ks, op :: ops =>
    match operandNumber k op, operandNumbers ks ops with
    | some n, some ns => some (n :: ns)
    | _, _ => none

/-- The command of an opcode and its operand numbers. -/
def commandOf (o : Opcode) (ns : List Nat) : Instr :=
  let f := fun k => regField (ns.getD k 0)
  o.instr (packWord o.byte (f 0) (f 1) (f 2) (f 3) (f 4))

/-- A pseudo-instruction of 30_encoding.md R101 from its name and operands. -/
def pseudoOf (name : String) (ops : List (List Char)) : Option Pseudo :=
  let regs := fun kinds => operandNumbers kinds ops
  let r := fun n : Nat => (Fin.ofNat 16 n : Fin 16)
  match name with
  | "FSUB" => match regs [.e, .e, .e] with | some [a, b, c] => some (.fsub (r a) (r b) (r c)) | _ => none
  | "PSUB" => match regs [.p, .p, .p] with | some [a, b, c] => some (.psub (r a) (r b) (r c)) | _ => none
  | "FSQR" => match regs [.e, .e] with | some [a, b] => some (.fsqr (r a) (r b)) | _ => none
  | "PSQR" => match regs [.p, .p] with | some [a, b] => some (.psqr (r a) (r b)) | _ => none
  | "EZERO" => match regs [.e] with | some [a] => some (.ezero (r a)) | _ => none
  | "PZERO" => match regs [.p] with | some [a] => some (.pzero (r a)) | _ => none
  | _ => none

/-- A command line (30_encoding.md R100): mnemonic, operands separated by commas, a comment after `;`. `none` where the line holds no
command of R96 or R101. -/
def assembleLine (line : String) : Option Instr :=
  let text := trimChars (line.toList.takeWhile (· ≠ ';'))
  let name := String.ofList ((text.takeWhile (fun c => c ≠ ' ' ∧ c ≠ '\t')).map upperChar)
  let rest := trimChars (text.dropWhile (fun c => c ≠ ' ' ∧ c ≠ '\t'))
  let ops := if rest = [] then [] else (splitChars ',' rest).map trimChars
  match Opcode.all.find? (fun o => mnemonicOf o == name) with
  | some o => (operandNumbers o.kinds ops).map (commandOf o)
  | none => (pseudoOf name ops).map expandPseudo

end Sys2Proof.Machine
end

