-- ==== Sys2Proof/Machine/HostProgram.lean ====
section
/-! DEFINITION. The host-program notation of 30_encoding.md R102 as the events the block sees. The loops of a host (`wait`, branches on
STATUS) are host software (00_scope.md R5); a `wait` stands here as the engine's move that ends it. -/

namespace Sys2Proof.Machine

/-- The named registers of 10_state.md R21. -/
inductive RegName where
  | id | cap0 | cap1 | cap2 | cap3 | ctrl | status | cmd | errcmd | cfgM | cfgFmod | cfgN | arg0
  | resCount | resRank | resFlag | dsel | didx | ddata
deriving DecidableEq, Repr

/-- The offset of a register (10_state.md R21). -/
def regOffset : RegName → BitVec 8
  | .id => 0x00 | .cap0 => 0x04 | .cap1 => 0x08 | .cap2 => 0x0C | .cap3 => 0x10
  | .ctrl => 0x14 | .status => 0x18 | .cmd => 0x1C | .errcmd => 0x20
  | .cfgM => 0x24 | .cfgFmod => 0x28 | .cfgN => 0x2C | .arg0 => 0x30
  | .resCount => 0x34 | .resRank => 0x38 | .resFlag => 0x3C
  | .dsel => 0x40 | .didx => 0x44 | .ddata => 0x48

/-- `wr NAME, v`. -/
def hostWr (r : RegName) (v : Nat) : HostEvent :=
  .access { off := regOffset r, width := .word, kind := .write (BitVec.ofNat 32 v) }

/-- `rd NAME`. -/
def hostRd (r : RegName) : HostEvent := .access { off := regOffset r, width := .word, kind := .read }

/-- A command line: `wr CMD, w` followed by `wait`. -/
def hostCmd (i : Instr) : List HostEvent := [hostWr .cmd (encode i).toNat, .engineTurn]

/-- `sete eI, v`. -/
def hostSetE (i v : Nat) : List HostEvent := [hostWr .dsel 0, hostWr .didx i, hostWr .ddata v]

/-- `setp pI, [c0, ..., ck]` in a build with `pcap` coefficients: every coefficient is written. -/
def hostSetP (pcap i : Nat) (cs : List Nat) : List HostEvent :=
  [hostWr .dsel (0x00010001 ||| (i <<< 8)), hostWr .didx 0]
    ++ (Memory.firstEntries cs pcap).map (hostWr .ddata)

/-- The 32-bit words of a packed row of `c` columns. -/
def rowWords (c row : Nat) : List Nat := (List.range ((c + 31) / 32)).map fun w => (row >>> (32 * w)) % 2 ^ 32

/-- `setm mI, r, c, rows`, each row packed, in a build with `wpr` words per row. -/
def hostSetM (wpr i : Nat) (A : Mat) : List HostEvent :=
  [hostWr .dsel (0x00000003 ||| (i <<< 8)), hostWr .didx 0, hostWr .ddata 0, hostWr .didx 1, hostWr .ddata 0,
    hostWr .didx 0, hostWr .ddata A.rows, hostWr .didx 1, hostWr .ddata A.cols,
    hostWr .dsel (0x00010002 ||| (i <<< 8))]
    ++ (A.row.zipIdx.flatMap fun (row, k) => hostWr .didx (k * wpr) :: (rowWords A.cols row).map (hostWr .ddata))

/-- `setsup [s0, ..., s(n−1)]`. -/
def hostSetSup (vs : List Nat) : List HostEvent :=
  [hostWr .dsel 0x00010004, hostWr .didx 0] ++ vs.map (hostWr .ddata)

/-- `gete eI`. -/
def hostGetE (i : Nat) : List HostEvent := [hostWr .dsel 0, hostWr .didx i, hostRd .ddata]

/-- `getp pI` in a build with `pcap` coefficients. -/
def hostGetP (pcap i : Nat) : List HostEvent :=
  [hostWr .dsel (0x00010001 ||| (i <<< 8)), hostWr .didx 0] ++ List.replicate pcap (hostRd .ddata)

/-- `getm mI` for a matrix of `r` rows and `c` columns: the words of the rows, with no read of the dimensions (DESIGN CHOICE,
assumption 19). -/
def hostGetM (wpr i r c : Nat) : List HostEvent :=
  hostWr .dsel (0x00010002 ||| (i <<< 8))
    :: ((List.range r).flatMap fun k => hostWr .didx (k * wpr) :: List.replicate ((c + 31) / 32) (hostRd .ddata))

end Sys2Proof.Machine
end

