-- ==== Sys2Proof/Tests/Slice0.lean ====
section
/-! SUPPORT. Tests, each of one step or one access on a small state, with results from the tables of 95_test_vectors.md; and for every
obligation with hypotheses a witness `test_hyps_<obligation>` that meets them. -/

namespace Sys2Proof.Tests

set_option Elab.async false

open Sys2Proof.Machine

/-! ## Helpers -/

/-- After reset and initialisation. -/
def ready : State := { State.reset with pend := .none }

/-- An active field. -/
def State.over (s : State) (m : BitVec 5) (f : Word) : State :=
  { s with cfgM := m, cfgFmod := f, status := { s.status with cfgValid := true } }

/-- GF(8) of 95_test_vectors.md: m = 3, f = 0xB. -/
def gf8 : State := State.over ready 3 0xB

/-- GF(16) of 95_test_vectors.md: m = 4, f = 0x13. -/
def gf16 : State := State.over ready 4 0x13

/-- The state with the `E`, `P` and `M` registers given. -/
def State.withE (s : State) (i : EReg) (v : Nat) : State := { s with e := s.e.set i v }
def State.withP (s : State) (i : PReg) (A : Poly) : State := { s with p := s.p.set i A }
def State.withM (s : State) (i : MReg) (A : Mat) : State := { s with m := s.m.set i A }

/-- A matrix from its rows, column 0 first. -/
def mat (cols : Nat) (rows : List (List Nat)) : Mat :=
  { cols := cols, row := rows.map fun r => r.foldr (fun b acc => b + 2 * acc) 0 }

/-- The support 0 to 7 over GF(8). -/
def sup8 : State := { gf8 with cfgN := 8, sup := [0, 1, 2, 3, 4, 5, 6, 7] }

/-- Code A of 95_test_vectors.md section 2.5, with `r = 00011111` in M[2] and `G` in M[1]. -/
def codeA : State :=
  State.withM (State.withM (State.withP sup8 0 [1, 1, 1]) 2 (mat 8 [[0, 0, 0, 1, 1, 1, 1, 1]])) 1
    (mat 8 [[1, 1, 1, 0, 1, 0, 1, 0], [1, 1, 0, 1, 0, 1, 0, 1]])

/-- Code A with the codeword 00111111 in M[2]. -/
def codeword : State := State.withM codeA 2 (mat 8 [[0, 0, 1, 1, 1, 1, 1, 1]])

/-- The word `w` issued and not yet completed. -/
def busyWith (s : State) (w : Word) (zs : Bool) : State :=
  { s with pend := .run w zs, status := { s.status with done := false } }

/-- The data port set up. -/
def port (s : State) (space : BitVec 3) (reg : BitVec 4) (auto : Bool) (idx : Word) : State :=
  { s with dsel := { space := space, reg := reg, autoinc := auto }, didx := idx }

/-- What `f` sees after a next state. -/
def seen {α : Type} (o : Host.Outcome State Fault Refusal) (f : State → α) : Option α :=
  match o with
  | .next t => some (f t)
  | _ => none

/-- What `f` sees after the command word `w` has run as the next step. -/
def runs {α : Type} (s : State) (w : Nat) (f : State → α) : Option α := seen (step (s.withFetchWord 32 w)) f

/-- One access. -/
def wr (s : State) (r : RegName) (v : Word) : State := hostAccess s { off := regOffset r, width := .word, kind := .write v }
def rd (s : State) (r : RegName) : State := hostAccess s { off := regOffset r, width := .word, kind := .read }

/-! ## Well-formedness (30_encoding.md R93): an ill-formed term for each of the four checks -/

theorem test_ill_formed_pdivmod : Instr.wellFormed (.pdivmod 1 1 3 4) = false ∧ Instr.wellFormed (.pdivmod 1 2 3 4) = true := by decide
theorem test_ill_formed_psplit : Instr.wellFormed (.psplit 2 2 3) = false ∧ Instr.wellFormed (.psplit 2 3 3) = true := by decide
theorem test_ill_formed_latred : Instr.wellFormed (.latred 5 5 0 0) = false ∧ Instr.wellFormed (.latred 5 6 0 0) = true := by decide
theorem test_ill_formed_decode : Instr.wellFormed (.decode 3 1 0 2 3) = false ∧ Instr.wellFormed (.decode 3 1 0 2 4) = true := by decide

/-! ## Decoding: one word per command, written out from 30_encoding.md R96 and R97 as `0000 eeee dddd cccc bbbb aaaa oooooooo` -/

theorem test_decode_nop : decodeWord 0b00000000000000000000000000000000#32 = .ok .nop := by decide
theorem test_decode_config : decodeWord 0b00000000000000000000000000000001#32 = .ok .config := by decide
theorem test_decode_supinit : decodeWord 0b00000000000000000000000000000010#32 = .ok .supinit := by decide
theorem test_decode_emov : decodeWord 0b00000000000000001010100100000011#32 = .ok (.emov 9 10) := by decide
theorem test_decode_pmov : decodeWord 0b00000000000000001010100100000100#32 = .ok (.pmov 9 10) := by decide
theorem test_decode_mmov : decodeWord 0b00000000000000000010000100000101#32 = .ok (.mmov 1 2) := by decide
theorem test_decode_fadd : decodeWord 0b00000000000011001010100100010000#32 = .ok (.fadd 9 10 12) := by decide
theorem test_decode_fmul : decodeWord 0b00000000000011001010100100010001#32 = .ok (.fmul 9 10 12) := by decide
theorem test_decode_finv : decodeWord 0b00000000000000001010100100010010#32 = .ok (.finv 9 10) := by decide
theorem test_decode_fpow : decodeWord 0b00000000000011001010100100010011#32 = .ok (.fpow 9 10 12) := by decide
theorem test_decode_fsqrt : decodeWord 0b00000000000000001010100100010100#32 = .ok (.fsqrt 9 10) := by decide
theorem test_decode_padd : decodeWord 0b00000000000011001010100100100000#32 = .ok (.padd 9 10 12) := by decide
theorem test_decode_pmul : decodeWord 0b00000000000011001010100100100001#32 = .ok (.pmul 9 10 12) := by decide
theorem test_decode_pdivmod : decodeWord 0b00000000111111001010100100100010#32 = .ok (.pdivmod 9 10 12 15) := by decide
theorem test_decode_pmod : decodeWord 0b00000000000011001010100100100011#32 = .ok (.pmod 9 10 12) := by decide
theorem test_decode_pinvmod : decodeWord 0b00000000000011001010100100100100#32 = .ok (.pinvmod 9 10 12) := by decide
theorem test_decode_psplit : decodeWord 0b00000000000011001010100100100101#32 = .ok (.psplit 9 10 12) := by decide
theorem test_decode_psqrtmod : decodeWord 0b00000000000011001010100100100110#32 = .ok (.psqrtmod 9 10 12) := by decide
theorem test_decode_peval : decodeWord 0b00000000000011001010100100100111#32 = .ok (.peval 9 10 12) := by decide
theorem test_decode_proots : decodeWord 0b00000000000000001010000100101000#32 = .ok (.proots 1 10) := by decide
theorem test_decode_pirred : decodeWord 0b00000000000000000000100100101001#32 = .ok (.pirred 9) := by decide
theorem test_decode_mmul : decodeWord 0b00000000000001000010000101000000#32 = .ok (.mmul 1 2 4) := by decide
theorem test_decode_madd : decodeWord 0b00000000000001000010000101000001#32 = .ok (.madd 1 2 4) := by decide
theorem test_decode_mtrans : decodeWord 0b00000000000000000010000101000010#32 = .ok (.mtrans 1 2) := by decide
theorem test_decode_mhcat : decodeWord 0b00000000000001000010000101000011#32 = .ok (.mhcat 1 2 4) := by decide
theorem test_decode_mrowred : decodeWord 0b00000000000000000010000101000100#32 = .ok (.mrowred 1 2) := by decide
theorem test_decode_mnull : decodeWord 0b00000000000000000010000101000101#32 = .ok (.mnull 1 2) := by decide
theorem test_decode_minv : decodeWord 0b00000000000000000010000101000110#32 = .ok (.minv 1 2) := by decide
theorem test_decode_mdet : decodeWord 0b00000000000000000000000101000111#32 = .ok (.mdet 1) := by decide
theorem test_decode_pcheck : decodeWord 0b00000000000000001010000101100000#32 = .ok (.pcheck 1 10) := by decide
theorem test_decode_synd : decodeWord 0b00000000000011000010100101100001#32 = .ok (.synd 9 2 12) := by decide
theorem test_decode_latred : decodeWord 0b00000000111111001010100101100010#32 = .ok (.latred 9 10 12 15) := by decide
theorem test_decode_patterson : decodeWord 0b00000000111111000010000101100011#32 = .ok (.patterson 1 2 12 15) := by decide
theorem test_decode_decode : decodeWord 0b00000101011111000010000101100100#32 = .ok (.decode 1 2 12 7 5) := by decide
/-- 95_test_vectors.md 2.1: reserved opcodes, a field of kind `-`, bit 28, an M field of 8. -/
theorem test_decode_refuses :
    decodeWord 0x00000006 = .error .illegalOpcode ∧ decodeWord 0x000000FF = .error .illegalOpcode ∧
    decodeWord 0x00000100 = .error .illegalField ∧ decodeWord 0x10032111 = .error .illegalField ∧
    decodeWord 0x00000805 = .error .illegalField := by decide
/-- 20_memory.md R61: little-endian lanes of DECODE m0, m1, p0, m2, m3 = 0x03201064 (30_encoding.md R97). -/
theorem test_decode_lanes : decodeBytes [0x64, 0x10, 0x20, 0x03, 0xAA] = .ok (.decode 0 1 0 2 3, [0xAA]) := by decide
theorem test_table_word : decodeTableWord 32 0x00032111 = some (.fmul 1 2 3) ∧ decodeTableWord 32 0x00000006 = none := by decide

/-! ## Assembler (30_encoding.md R100, R101) -/

theorem test_assemble_command :
    assembleLine "PDIVMOD p1, p2, p3, p4" = some (.pdivmod 1 2 3 4) ∧
    assembleLine "  mdet M2 ; determinant" = some (.mdet 2) ∧ assembleLine "MMOV m8, m0" = none := by decide +kernel
theorem test_assemble_pseudo :
    assembleLine "FSQR e1, e2" = some (.fmul 1 2 2) ∧ assembleLine "PZERO p3" = some (.padd 3 3 3) := by decide +kernel

/-! ## Commands (95_test_vectors.md section 2); each test sees the result and STATUS -/

theorem test_nop : runs ready 0 (fun t => t.statusWord) = some 0x00000002 := by decide +kernel
theorem test_config :
    runs { ready with cfgM := 16, cfgFmod := 0x1002B } 0x00000001 (fun t => t.statusWord) = some 0x00000042 := by decide +kernel
theorem test_config_reducible :
    runs { ready with cfgM := 3, cfgFmod := 0x9 } 0x00000001 (fun t => t.statusWord) = some 0x00000406 := by decide +kernel
theorem test_supinit :
    runs { gf8 with cfgN := 8 } 0x00000002
      (fun t => (t.sup, t.statusWord)) = some ([0, 1, 2, 3, 4, 5, 6, 7], 0x00000042) := by decide +kernel
theorem test_supinit_bad_n :
    runs { gf8 with cfgN := 9 } 0x00000002 (fun t => (t.sup, t.statusWord)) = some ([], 0x00000E46) := by decide +kernel
theorem test_emov :
    runs (State.withE ready 2 0xFFFF) 0x00002403
      (fun t => (t.e[4], t.statusWord)) = some (0xFFFF, 0x00000002) := by decide +kernel
theorem test_pmov :
    runs (State.withP ready 3 [1, 2, 3]) 0x00003704
      (fun t => (t.p[7], t.statusWord)) = some ([1, 2, 3], 0x00000002) := by decide +kernel
theorem test_mmov :
    runs (State.withM ready 1 (mat 3 [[1, 0, 1], [0, 1, 1]])) 0x00001605
      (fun t => (t.m[6], t.statusWord)) = some (mat 3 [[1, 0, 1], [0, 1, 1]], 0x00000002) := by decide +kernel
theorem test_fadd :
    runs (State.withE (State.withE gf8 2 5) 3 3) 0x00032110
      (fun t => (t.e[1], t.statusWord)) = some (6, 0x00000042) := by decide +kernel
theorem test_fadd_range :
    runs (State.withE (State.withE gf8 2 1) 3 9) 0x00032110
      (fun t => (t.e[1], t.statusWord)) = some (0, 0x00000546) := by decide +kernel
theorem test_fmul :
    runs (State.withE (State.withE gf8 2 2) 3 4) 0x00032111
      (fun t => (t.e[1], t.statusWord)) = some (3, 0x00000042) := by decide +kernel
theorem test_fmul_wide :
    runs (State.withE (State.withE (State.over ready 16 0x1002B) 2 32768) 3 2) 0x00032111
      (fun t => (t.e[1], t.statusWord)) = some (43, 0x00000042) := by decide +kernel
theorem test_finv : runs (State.withE gf8 2 2) 0x00002112 (fun t => (t.e[1], t.statusWord)) = some (5, 0x00000042) := by decide +kernel
theorem test_finv_zero : runs gf8 0x00002112 (fun t => (t.errcmd, t.statusWord)) = some (0x00002112, 0x00000646) := by decide +kernel
/-- The whole stored exponent: 65535 mod 7 = 1. -/
theorem test_fpow :
    runs (State.withE (State.withE gf8 2 5) 3 65535) 0x00032113
      (fun t => (t.e[1], t.statusWord)) = some (5, 0x00000042) := by decide +kernel
theorem test_fpow_zero_zero : runs gf8 0x00032113 (fun t => (t.e[1], t.statusWord)) = some (1, 0x00000042) := by decide +kernel
theorem test_fsqrt : runs (State.withE gf8 2 2) 0x00002114 (fun t => (t.e[1], t.statusWord)) = some (6, 0x00000042) := by decide +kernel
theorem test_padd :
    runs (State.withP (State.withP gf8 2 [1, 2, 3]) 3 [1, 0, 0, 4]) 0x00032120
      (fun t => (t.p[1], t.statusWord)) = some ([0, 2, 3, 4], 0x00000042) := by decide +kernel
theorem test_padd_cancels :
    runs (State.withP gf8 2 [1, 2, 3]) 0x00022120 (fun t => (t.p[1], t.statusWord)) = some ([], 0x00000042) := by decide +kernel
theorem test_pmul :
    runs (State.withP (State.withP gf8 2 [2, 1]) 3 [3, 1]) 0x00032121
      (fun t => (t.p[1], t.statusWord)) = some ([6, 1, 1], 0x00000042) := by decide +kernel
theorem test_pmul_capacity :
    runs (State.withP (State.withP gf8 2 (pshift 128 [1])) 3 (pshift 128 [1])) 0x00032121
      (fun t => (t.p[1], t.statusWord)) = some ([], 0x00000C46) := by decide +kernel
theorem test_pdivmod :
    runs (State.withP (State.withP gf8 3 [1, 0, 0, 1]) 4 [2, 1]) 0x00432122
      (fun t => (t.p[1], t.p[2], t.statusWord)) = some ([4, 2, 1], [2], 0x00000042) := by decide +kernel
theorem test_pdivmod_zero : runs (State.withP gf8 3 [1, 2, 3]) 0x00432122 (fun t => t.statusWord) = some 0x00000646 := by decide +kernel
theorem test_pmod :
    runs (State.withP (State.withP gf8 2 [0, 0, 0, 0, 1]) 3 [1, 1, 1]) 0x00032123
      (fun t => (t.p[1], t.statusWord)) = some ([0, 1], 0x00000042) := by decide +kernel
theorem test_pinvmod :
    runs (State.withP (State.withP gf8 2 [7, 4]) 3 [1, 1, 1]) 0x00032124
      (fun t => (t.p[1], t.statusWord)) = some ([2, 1], 0x00000042) := by decide +kernel
theorem test_pinvmod_not_invertible :
    runs (State.withP (State.withP gf8 2 [1, 1]) 3 [1, 0, 1]) 0x00032124
      (fun t => t.statusWord) = some 0x00000746 := by decide +kernel
theorem test_psplit :
    runs (State.withP gf8 3 [1, 2, 3, 4, 5]) 0x00032125
      (fun t => (t.p[1], t.p[2], t.statusWord)) = some ([1, 7, 3], [6, 2], 0x00000042) := by decide +kernel
theorem test_psqrtmod :
    runs (State.withP (State.withP gf8 2 [3, 5]) 3 [1, 1, 1]) 0x00032126
      (fun t => (t.p[1], t.statusWord)) = some ([4, 3], 0x00000042) := by decide +kernel
theorem test_psqrtmod_reducible :
    runs (State.withP (State.withP gf8 2 [0, 1]) 3 [1, 0, 1]) 0x00032126
      (fun t => (t.p[1], t.statusWord)) = some ([1], 0x00000042) := by decide +kernel
theorem test_peval :
    runs (State.withE (State.withP gf8 2 [1, 1, 1]) 3 3) 0x00032127
      (fun t => (t.e[1], t.statusWord)) = some (7, 0x00000042) := by decide +kernel
theorem test_peval_at_zero :
    runs (State.withP gf8 2 [6, 2, 5]) 0x00032127 (fun t => (t.e[1], t.statusWord)) = some (6, 0x00000042) := by decide +kernel
theorem test_proots :
    runs (State.withP sup8 2 [4, 5, 1]) 0x00002028
      (fun t => (t.m[0], t.resCount, t.statusWord)) = some (mat 8 [[0, 1, 0, 0, 1, 0, 0, 0]], 2, 0x00000042) := by decide +kernel
theorem test_pirred :
    runs (State.withP gf8 2 [1, 1, 1]) 0x00000229
      (fun t => (t.resFlag, t.statusWord)) = some (true, 0x00000042) := by decide +kernel
theorem test_pirred_reducible :
    runs (State.withP gf8 2 [1, 1, 0, 1]) 0x00000229
      (fun t => (t.resFlag, t.statusWord)) = some (false, 0x00000042) := by decide +kernel
theorem test_mmul :
    runs (State.withM (State.withM ready 1 (mat 3 [[1, 0, 1]])) 2 (mat 3 [[1, 1, 0], [0, 1, 1], [1, 0, 0]])) 0x00021040
      (fun t => (t.m[0], t.statusWord)) = some (mat 3 [[0, 1, 0]], 0x00000002) := by
  decide +kernel
theorem test_mmul_inner_zero :
    runs (State.withM (State.withM ready 1 (mat 0 [[], []])) 2 (mat 3 [])) 0x00021040
      (fun t => (t.m[0], t.statusWord)) = some (mat 3 [[0, 0, 0], [0, 0, 0]], 0x00000002) := by decide +kernel
theorem test_madd :
    runs (State.withM (State.withM ready 1 (mat 4 [[1, 1, 0, 1]])) 2 (mat 4 [[0, 1, 0, 0]])) 0x00021041
      (fun t => (t.m[0], t.statusWord)) = some (mat 4 [[1, 0, 0, 1]], 0x00000002) := by decide +kernel
theorem test_madd_mismatch :
    runs (State.withM (State.withM ready 1 (mat 4 [[1, 1, 0, 1]])) 2 (mat 3 [[0, 1, 0]])) 0x00021041
      (fun t => t.statusWord) = some 0x00000B06 := by decide +kernel
theorem test_mtrans_in_place :
    runs (State.withM ready 1 (mat 4 [[1, 1, 0, 0], [0, 1, 1, 0]])) 0x00001142
      (fun t => (t.m[1], t.statusWord)) = some (mat 2 [[1, 0], [1, 1], [0, 1], [0, 0]], 0x00000002) := by decide +kernel
theorem test_mhcat :
    runs (State.withM (State.withM ready 1 (mat 2 [[1, 0]])) 2 (mat 1 [[1]])) 0x00021043
      (fun t => (t.m[0], t.statusWord)) = some (mat 3 [[1, 0, 1]], 0x00000002) := by decide +kernel
theorem test_mrowred :
    runs { State.withM ready 1 (mat 4 [[0, 1, 1, 0], [1, 1, 0, 1], [1, 0, 1, 1]]) with arg0 := 2 } 0x00001044
      (fun t => (t.m[0], t.resRank, t.statusWord)) = some (mat 4 [[1, 0, 1, 1], [0, 1, 1, 0], [0, 0, 0, 0]], 2, 0x00000002) := by
  decide +kernel
theorem test_mrowred_no_columns :
    runs (State.withM ready 1 (mat 4 [[0, 1, 1, 0], [1, 1, 0, 1], [1, 0, 1, 1]])) 0x00001044
      (fun t => (t.m[0], t.resRank, t.statusWord)) = some (mat 4 [[0, 1, 1, 0], [1, 1, 0, 1], [1, 0, 1, 1]], 0, 0x00000002) := by
  decide +kernel
theorem test_mnull :
    runs (State.withM ready 1 (mat 4 [[1, 0, 1, 1], [0, 1, 1, 0]])) 0x00001045
      (fun t => (t.m[0], t.resRank, t.statusWord)) = some (mat 4 [[1, 1, 1, 0], [1, 0, 0, 1]], 2, 0x00000002) := by decide +kernel
theorem test_minv :
    runs (State.withM ready 1 (mat 3 [[1, 1, 0], [0, 1, 1], [1, 0, 0]])) 0x00001046
      (fun t => (t.m[0], t.statusWord)) = some (mat 3 [[0, 0, 1], [1, 0, 1], [1, 1, 1]], 0x00000002) := by decide +kernel
theorem test_minv_singular :
    runs (State.withM ready 1 (mat 3 [[1, 1, 0], [0, 1, 1], [1, 0, 1]])) 0x00001046
      (fun t => t.statusWord) = some 0x00000806 := by decide +kernel
theorem test_mdet :
    runs (State.withM ready 1 (mat 3 [[1, 1, 0], [0, 1, 1], [1, 0, 0]])) 0x00000147
      (fun t => (t.resFlag, t.statusWord)) = some (true, 0x00000002) := by decide +kernel
theorem test_mdet_singular :
    runs { State.withM ready 1 (mat 3 [[1, 1, 0], [0, 1, 1], [1, 0, 1]]) with resFlag := true } 0x00000147
      (fun t => (t.resFlag, t.statusWord)) = some (false, 0x00000002) := by decide +kernel
theorem test_pcheck :
    runs codeA 0x00000060
      (fun t => (t.m[0], t.statusWord)) = some (mat 8 [[1, 1, 0, 0, 0, 0, 0, 0], [0, 0, 0, 0, 1, 1, 1, 1], [0, 0, 1, 1, 1, 1, 0, 0], [1, 0, 1, 1, 1, 1, 1, 1], [0, 0, 1, 1, 1, 0, 0, 1], [0, 0, 1, 0, 0, 1, 1, 1]], 0x00000042) := by
  decide +kernel
theorem test_pcheck_bad_support :
    runs (State.withP codeA 0 [1, 1]) 0x00000060 (fun t => t.statusWord) = some 0x00001046 := by decide +kernel
theorem test_synd : runs codeA 0x00002161 (fun t => (t.p[1], t.statusWord)) = some ([7, 4], 0x00000042) := by decide +kernel
theorem test_synd_codeword : runs codeword 0x00002161 (fun t => (t.p[1], t.statusWord)) = some ([], 0x00000042) := by decide +kernel
theorem test_latred :
    runs (State.withP (State.withP gf16 0 [1, 1, 0, 1]) 3 [10, 7, 10]) 0x00032162
      (fun t => (t.p[1], t.p[2], t.statusWord)) = some ([3, 4], [11, 12], 0x00000042) := by decide +kernel
theorem test_latred_constant : runs (State.withP gf8 0 [3]) 0x00032162 (fun t => t.statusWord) = some 0x00000F46 := by decide +kernel
theorem test_patterson :
    runs codeA 0x00402363
      (fun t => (t.m[3], t.p[4], t.resCount, t.statusWord)) = some (mat 8 [[0, 0, 1, 1, 1, 1, 1, 1]], [2, 1], 1, 0x00000042) := by
  decide +kernel
theorem test_patterson_zero_syndrome : runs codeword 0x00402363 (fun t => t.statusWord) = some 0x00000946 := by decide +kernel
theorem test_decode :
    runs codeA 0x05102464
      (fun t => (t.m[4], t.m[5], t.resCount, t.resRank, t.statusWord)) = some (mat 2 [[1, 1]], mat 8 [[0, 0, 1, 1, 1, 1, 1, 1]], 1, 2, 0x00000042) := by
  decide +kernel
theorem test_decode_pass :
    runs { State.withM codeA 2 (mat 8 [[1, 1, 1, 0, 1, 0, 1, 0]]) with ctrl := { irqEn := false, zsPass := true } } 0x05102464
      (fun t => (t.m[4], t.m[5], t.resCount, t.statusWord)) = some (mat 2 [[1, 0]], mat 8 [[1, 1, 1, 0, 1, 0, 1, 0]], 0, 0x00000042) := by
  decide +kernel

/-! ## Host interface (95_test_vectors.md section 3) -/

/-- Line 1: BUSY after reset; a CMD write during the initialisation is dropped with OVR. -/
theorem test_reset_status : State.reset.statusWord = 0x00000001 ∧ (wr State.reset .cmd 0).statusWord = 0x00000011 := by decide
/-- 70_reset_and_hazards.md R272. -/
theorem test_initialisation : seen (step State.reset) State.pend = some .none := by decide
/-- Line 1: ID and the CAP registers. -/
theorem test_build_registers :
    (rd ready .id).rdata = 0x47460001 ∧ (rd ready .cap0).rdata = 0x01000010 ∧ (rd ready .cap3).rdata = 0x00002000 := by decide +kernel
/-- Line 3: the first failure is kept, a second one sets ERRM, a STATUS write clears the record. -/
theorem test_error_capture :
    seen (step ((busyWith gf8 0x00002112 false))) (fun t => seen (step (wr t .cmd 0x000000FF))
      fun u => (u.statusWord, u.errcmd, (wr u .status 0x4).statusWord, (wr u .status 0x4).errcmd)) =
      some (some (0x0000064E, 0x00002112, 0x00000042, 0)) := by decide +kernel
/-- Line 4: IRQ rises at the completion. -/
theorem test_interrupt : (wr (wr ready .ctrl 2) .cmd 0).irq = false ∧ runs (wr ready .ctrl 2) 0 State.irq = some true := by decide +kernel
/-- Line 5: MDATA words at the stride WPR = 256; bits outside the dimensions are discarded. -/
theorem test_matrix_words :
    let s := port (State.withM ready 0 { cols := 40, row := [2 ^ 40 - 1, 2 ^ 39] }) 2 0 false 1
    (rd s .ddata).rdata = 0x000000FF ∧ (rd (port s 2 0 false 257) .ddata).rdata = 0x00000080 ∧
    (rd (wr s .ddata 0xFFFFFFFF) .ddata).rdata = 0x000000FF := by decide +kernel
/-- Line 6: PDEG. -/
theorem test_degrees :
    (rd (port ready 5 0 false 2) .ddata).rdata = 0xFFFFFFFF ∧
    (rd (port (State.withP ready 2 [1, 0, 4]) 5 0 false 2) .ddata).rdata = 2 := by decide +kernel
/-- Line 7: AUTOINC, also after a rejected access. -/
theorem test_autoinc :
    let s := wr (wr (port ready 0 0 true 15) .ddata 9) .ddata 11
    s.e[15] = 9 ∧ s.statusWord = 0x00000020 ∧ s.didx = 17 := by decide +kernel
/-- Line 8. -/
theorem test_narrow_access :
    (hostAccess ready { off := 0x49, width := .word, kind := .read }).statusWord = 0x00000020 ∧
    (hostAccess ready { off := 0x48, width := .half, kind := .write 5 }).statusWord = 0x00000020 := by decide +kernel
/-- Line 9. -/
theorem test_reserved_space :
    (rd (port ready 6 0 false 0) .ddata).statusWord = 0x00000020 ∧ (rd (port ready 3 8 false 0) .ddata).statusWord = 0x00000020 := by
  decide +kernel
/-- Line 10: accesses while busy are dropped with OVR; the pending command completes. -/
theorem test_busy_accesses :
    let s := wr (wr (busyWith (State.withE ready 3 7) 0x00003403 false) .cmd 0x00003503) .cfgN 99
    s.statusWord = 0x00000011 ∧ seen (step s) (fun t => (t.e[4], t.e[5], t.cfgN)) = some (7, 0, 0) := by decide +kernel
/-- Line 11: a soft reset discards the pending command. -/
theorem test_soft_reset :
    let s := wr (busyWith (State.withE gf8 2 3) 0x00002112 false) .ctrl 1
    s.statusWord = 0x00000001 ∧ s.e[2] = 0 ∧ seen (step s) State.statusWord = some 0 := by decide +kernel
/-- Line 12. -/
theorem test_configuration_loss :
    (wr gf8 .cfgM 3).statusWord = 0 ∧ runs (wr gf8 .cfgM 3) 0x00002112 State.statusWord = some 0x00000306 := by decide +kernel
/-- Line 13: ZS_PASS as sampled at issue. -/
theorem test_zs_pass_sampled :
    seen (step (wr (busyWith codeword 0x00402363 true) .ctrl 0)) (fun t => (t.statusWord, t.resCount)) = some (0x00000042, 0) := by
  decide +kernel
/-- 30_encoding.md R102: `wr`, `sete`, `rd`. -/
theorem test_host_lines :
    [hostWr .cmd 0x21] ++ hostSetE 3 7 ++ [hostRd .ddata] =
    [.access { off := 0x1C, width := .word, kind := .write 0x21 }, .access { off := 0x40, width := .word, kind := .write 0 },
      .access { off := 0x44, width := .word, kind := .write 3 }, .access { off := 0x48, width := .word, kind := .write 7 },
      .access { off := 0x48, width := .word, kind := .read }] := by
  decide

/-! ## Witnesses: states and operands that meet the hypotheses of each obligation -/

theorem test_hyps_DecodedWordsReencode : decodeWord 0x03201064 = .ok (.decode 0 1 0 2 3) := by decide

/-- No command has the opcode byte 0xFF. -/
theorem test_hyps_IllegalWordsFail_opcode :
    (busyWith gf8 0x000000FF false).pend = .run 0x000000FF false ∧
    (¬ ∃ i : Instr, i.wellFormed = true ∧ encode i = 0x000000FF#32) ∧
    (∀ o : Opcode, o.byte ≠ (0x000000FF#32).extractLsb' 0 8) := by
  refine ⟨rfl, ?_, fun o => by cases o <;> decide⟩
  rintro ⟨i, -, h⟩
  have := wordOp_encode i
  rw [h] at this
  cases i <;> simp only [Instr.opcode] at this <;> exact absurd this (by decide)

/-- The word 0x100 has the opcode byte of NOP, whose word is 0. -/
theorem test_hyps_IllegalWordsFail_field :
    (busyWith gf8 0x00000100 false).pend = .run 0x00000100 false ∧
    (¬ ∃ i : Instr, i.wellFormed = true ∧ encode i = 0x00000100#32) ∧
    (∃ o : Opcode, o.byte = (0x00000100#32).extractLsb' 0 8) := by
  refine ⟨rfl, ?_, .nop, by decide⟩
  rintro ⟨i, -, h⟩
  have := wordOp_encode i
  rw [h] at this
  cases i <;> first | exact absurd h (by decide) | (simp only [Instr.opcode] at this; exact absurd this (by decide))

theorem test_hyps_StepRunsDecodedCommand :
    decodeWord 0x00032111 = .ok (.fmul 1 2 3) ∧ decodeTableWord 32 0x00032111 = some (.fmul 1 2 3) ∧
    (busyWith gf8 0x00032111 false).pend = .run 0x00032111 false ∧ (busyWith gf8 0x00032111 false).inbox = [] ∧
    ({ busyWith gf8 0x00032111 false with inbox := [.engineTurn, hostRd .status] } : State).inbox =
      .engineTurn :: [hostRd .status] := by decide

theorem test_hyps_CommandsWriteOnlyTheirDestinations :
    (∃ t, exec (.fmul 1 2 3) gf8 = .next t) ∧ (2 : EReg) ∉ eDest (.fmul 1 2 3) ∧ (0 : PReg) ∉ pDest (.fmul 1 2 3) ∧
    (0 : MReg) ∉ mDest (.fmul 1 2 3) ∧ Instr.fmul 1 2 3 ≠ .supinit ∧ Instr.fmul 1 2 3 ≠ .config ∧
    writesCount (.fmul 1 2 3) = false ∧ writesRank (.fmul 1 2 3) = false ∧ writesFlag (.fmul 1 2 3) = false :=
  ⟨⟨_, rfl⟩, by decide⟩

theorem test_hyps_ChecksBeforeThePseudocode :
    needsField (.finv 1 2) = true ∧ (Instr.finv 1 2).wellFormed = true ∧ ready.status.cfgValid = false := by decide

/-- A recorded error, and the next event each of: the completion of a command, a reset, a soft reset, a clearing STATUS write. -/
theorem test_hyps_ErrorRecordIsSticky (ev : HostEvent)
    (h : ev ∈ [.engineTurn, .resetInput, hostWr .ctrl 1, hostWr .status 4]) :
    let s := { failureRecord gf8 .divZero 0x00002112 with inbox := [ev] }
    s.status.err = true ∧ ∃ t, step s = .next t := by
  simp only [List.mem_cons, List.not_mem_nil, or_false] at h
  rcases h with rfl | rfl | rfl | rfl <;> exact ⟨rfl, _, rfl⟩

theorem test_hyps_ResetMeetsInvariant : Build.Ok Config.reference := by decide +kernel

theorem test_hyps_EveryStepKeepsInvariant :
    (busyWith codeA 0x05102464 false).Inv ∧ (seen (step (busyWith codeA 0x05102464 false)) fun t => t.pend) = some .none := by
  decide +kernel

theorem test_hyps_OnlyConfigSetsCfgValid :
    let s := busyWith { ready with cfgM := 3, cfgFmod := 0xB } 0x00000001 false
    s.status.cfgValid = false ∧ seen (step s) (fun t => t.status.cfgValid) = some true := by decide +kernel

theorem test_hyps_PendingCommandIgnoresHostSetup :
    (busyWith codeA 0x00402363 true).pend = .run 0x00402363 true ∧
    (seen (engineMove (busyWith codeA 0x00402363 true)) fun t => t.pend) = some .none := by decide +kernel

theorem test_hyps_BusyAccessesKeepCommandInputs :
    (busyWith codeA 0 false).pend ≠ .none ∧
    (¬ ∃ v : Word, ({ off := 0x48, width := .word, kind := .write 5 } : Access) =
      { off := 0x14, width := .word, kind := .write v } ∧ v.getLsbD 0 = true) ∧
    (¬ ∃ v : Word, ({ off := 0x14, width := .word, kind := .write 6 } : Access) =
      { off := 0x14, width := .word, kind := .write v } ∧ v.getLsbD 0 = true) :=
  ⟨by decide, by rintro ⟨v, h, -⟩; injection h with h; exact absurd h (by decide),
    by rintro ⟨v, h, hv⟩; injection h with _ _ h; injection h with h; subst h; exact absurd hv (by decide)⟩

theorem test_hyps_CmdWriteIssuesOrIsDropped :
    ready.pend = .none ∧ State.reset.pend ≠ .none ∧ (busyWith ready 0 false).pend ≠ .none := by
  decide

theorem test_hyps_ConfigAndArgumentWrites :
    ready.pend = .none ∧ State.reset.pend ≠ .none ∧ (0x24#8 ∈ [0x24#8, 0x28#8, 0x2C#8, 0x30#8]) ∧
    (0x30#8 ∈ [0x24#8, 0x28#8, 0x2C#8, 0x30#8]) := by decide

theorem test_hyps_DataPortWhileBusy :
    State.reset.pend ≠ .none ∧ (busyWith ready 0 false).pend ≠ .none ∧
    (∀ off ∈ [0x00#8, 0x3C#8, 0x4C#8, 0xFC#8], off.toNat % 4 = 0) ∧ 0x4C ≤ (0x4C#8).toNat ∧ 0x4C ≤ (0xFC#8).toNat := by decide

theorem test_hyps_AutoincFollowsEveryIdleAccess :
    (port ready 0 0 true 0xFFFFFFFF).pend = .none ∧ (port State.reset 0 0 true 0).pend ≠ .none := by decide

theorem test_hyps_UndefinedAccessesOnlySetAerr :
    (AccessWidth.byte ≠ .word ∨ (0x48#8).toNat % 4 ≠ 0) ∧ (AccessWidth.word ≠ .word ∨ (0x49#8).toNat % 4 ≠ 0) ∧
    AccessKind.write 5 ≠ .read := by decide

theorem test_hyps_RegisterReadsHaveNoSideEffect :
    (∀ off ∈ [0x00#8, 0x18#8, 0x44#8, 0x4C#8, 0xFC#8], off.toNat % 4 = 0 ∧ off ≠ 0x48) ∧
    ready.caps.Ok ∧ ready.caps.rmax < 2 ^ 32 ∧ 0x4C ≤ (0x4C#8).toNat := by decide +kernel

theorem test_hyps_PortStoresElements :
    let e := port codeA 0 0 true 15
    let p := port codeA 1 15 false 255
    let m := port codeA 4 0 false 8191
    (e.Inv ∧ e.pend = .none ∧ e.dsel.space = 0 ∧ e.didx.toNat = (15 : Fin 16).val) ∧
    (p.Inv ∧ p.pend = .none ∧ p.dsel.space = 1 ∧ p.dsel.reg.toNat = (15 : Fin 16).val ∧ p.didx.toNat < p.caps.pcap) ∧
    (m.Inv ∧ m.pend = .none ∧ m.dsel.space = 4 ∧ m.didx.toNat < m.caps.nmax) := by
  refine ⟨?_, ?_, ?_⟩ <;> decide +kernel

theorem test_hyps_PortStoresMatrixWords :
    let s := port codeA 2 7 true (BitVec.ofNat 32 (8192 * 256 - 1))
    s.Inv ∧ s.pend = .none ∧ s.dsel.space = 2 ∧ s.dsel.reg.toNat = (7 : MReg).val ∧
    s.didx.toNat < s.caps.rmax * s.caps.wpr := by decide +kernel

theorem test_hyps_PortSetsMatrixDimensions :
    let r := port codeA 3 1 false 0
    let c := port codeA 3 1 false 1
    (r.Inv ∧ r.pend = .none ∧ r.dsel.space = 3 ∧ r.dsel.reg.toNat = (1 : MReg).val ∧ r.didx = 0 ∧
      (8192#32).toNat ≤ r.caps.rmax ∧ r.caps.rmax < (8193#32).toNat) ∧
    (c.Inv ∧ c.pend = .none ∧ c.dsel.space = 3 ∧ c.dsel.reg.toNat = (1 : MReg).val ∧ c.didx = 1 ∧
      (8192#32).toNat ≤ c.caps.cmax ∧ c.caps.cmax < (8193#32).toNat) := by
  refine ⟨?_, ?_⟩ <;> decide +kernel

theorem test_hyps_PortReadsDegrees :
    let z := port codeA 5 0 true 15
    let g := port codeA 5 0 true 0
    (z.Inv ∧ z.pend = .none ∧ z.dsel.space = 5 ∧ z.didx.toNat = (15 : Fin 16).val ∧ z.p[15] = []) ∧
    (g.Inv ∧ g.pend = .none ∧ g.dsel.space = 5 ∧ g.didx.toNat = (0 : Fin 16).val ∧ g.p[0] ≠ []) := by
  refine ⟨?_, ?_⟩ <;> decide +kernel

/-- One state per disjunct, at the first index or register out of range. -/
theorem test_hyps_RejectedPortAccesses :
    6 ≤ (port ready 6 0 false 0).dsel.space.toNat ∧
    ((port ready 0 0 false 16).dsel.space = 0 ∧ 16 ≤ (port ready 0 0 false 16).didx.toNat) ∧
    ((port ready 5 0 true 16).dsel.space = 5 ∧ 16 ≤ (port ready 5 0 true 16).didx.toNat) ∧
    ((port ready 1 0 true 256).dsel.space = 1 ∧ ready.caps.pcap ≤ (port ready 1 0 true 256).didx.toNat) ∧
    ((port ready 2 8 true 0).dsel.space = 2 ∧ 8 ≤ (port ready 2 8 true 0).dsel.reg.toNat) ∧
    ((port ready 2 0 true 2097152).dsel.space = 2 ∧
      ready.caps.rmax * ready.caps.wpr ≤ (port ready 2 0 true 2097152).didx.toNat) ∧
    ((port ready 3 0 true 2).dsel.space = 3 ∧ 2 ≤ (port ready 3 0 true 2).didx.toNat) ∧
    ((port ready 4 0 true 8192).dsel.space = 4 ∧ ready.caps.nmax ≤ (port ready 4 0 true 8192).didx.toNat) ∧
    (port ready 4 0 true 8192).pend = .none := by decide +kernel

theorem test_hyps_ResetClearsTheBlock :
    (1#32).getLsbD 0 = true ∧ ({ busyWith gf8 0x00002112 false with inbox := [.resetInput] } : State).inbox = .resetInput :: [] ∧
    ({ gf8 with inbox := [hostWr .ctrl 1] } : State).inbox =
      .access { off := 0x14, width := .word, kind := .write 1 } :: [] := by decide

theorem test_hyps_InitialisationEnds :
    State.reset.pend = .init ∧ State.reset.inbox = [] ∧
    ({ State.reset with inbox := [.engineTurn, hostRd .status] } : State).inbox = .engineTurn :: [hostRd .status] := by decide

theorem test_hyps_InterruptFollowsCompletion :
    ((wr ready .ctrl 2).ctrl.irqEn = true ∧ ∃ t, exec .nop (wr ready .ctrl 2) = .next t) ∧
    ((2#32).getLsbD 0 = false ∧ (2#32).getLsbD 1 = true ∧ (failureRecord ready .divZero 0).status.done = true) ∧
    ((6#32).getLsbD 1 = true ∧ (6#32).getLsbD 2 = true) ∧ (4#32).getLsbD 1 = false :=
  ⟨⟨by decide, _, rfl⟩, by decide⟩

/-- The top bit of a binary product, for `test_hyps_ConfigChecksTheModulus`. -/
theorem clmul_fold_bound (u v : Nat) (n k : Nat) (h : u.log2 + n < k + 1) :
    ((List.range n).foldl (fun acc i => if v.testBit i then acc ^^^ (u <<< i) else acc) 0).testBit k = false := by
  induction n with
  | zero => simp
  | succ n ih =>
    rw [List.range_succ, List.foldl_append]
    have hs : (u <<< n).testBit k = false := by
      rw [Nat.testBit_shiftLeft, Nat.testBit_lt_two_pow (lt_of_lt_of_le Nat.lt_log2_self
        (Nat.pow_le_pow_right (by omega) (show u.log2 + 1 ≤ k - n by omega)))]
      simp
    simp only [List.foldl_cons, List.foldl_nil]
    split <;> simp [ih (by omega), hs]

theorem test_hyps_irreducible_binary : IrreducibleBinary 0x3 := by
  rintro ⟨u, v, hu, hv, h⟩
  have hlu : 1 ≤ u.log2 := (Nat.le_log2 (by omega)).2 (by simpa using hu)
  have hlv : 1 ≤ v.log2 := (Nat.le_log2 (by omega)).2 (by simpa using hv)
  have htop : (clmul (v.log2 + 1) u v).testBit (u.log2 + v.log2) = true := by
    rw [clmul, List.range_succ, List.foldl_append]
    simp only [List.foldl_cons, List.foldl_nil]
    rw [if_pos (Nat.testBit_log2 (by omega)), Nat.testBit_xor, clmul_fold_bound u v v.log2 _ (by omega), Nat.testBit_shiftLeft,
      Nat.add_sub_cancel, Nat.testBit_log2 (by omega)]
    simp
  rw [h, Nat.testBit_lt_two_pow (lt_of_lt_of_le (show 3 < 2 ^ 2 by decide) (Nat.pow_le_pow_right (by decide) (by omega)))] at htop
  exact absurd htop (by decide)

/-- GF(2), the smallest field: `m = 1`, `f = z + 1`; and a modulus of the wrong degree. -/
theorem test_hyps_ConfigChecksTheModulus :
    (1 ≤ (1#5).toNat ∧ (1#5).toNat ≤ ready.caps.mmax ∧ 2 ^ (1#5).toNat ≤ (3#32).toNat ∧ (3#32).toNat < 2 ^ ((1#5).toNat + 1) ∧
      IrreducibleBinary (3#32).toNat) ∧
    ¬ (2 ^ (3#5).toNat ≤ (0x13#32).toNat ∧ (0x13#32).toNat < 2 ^ ((3#5).toNat + 1)) ∧ ready.Inv :=
  ⟨⟨by decide, by decide, by decide, by decide, test_hyps_irreducible_binary⟩, by decide, by decide +kernel⟩

/-- N at its upper bound `2^m`, one above it, and 0. -/
theorem test_hyps_SupinitLoadsIdentity :
    (sup8.Configured ∧ sup8.LengthOk) ∧
    (({ gf8 with cfgN := 9 } : State).Configured ∧ ¬ ({ gf8 with cfgN := 9 } : State).LengthOk) ∧
    (gf8.Configured ∧ ¬ gf8.LengthOk) := by
  refine ⟨?_, ?_, ?_⟩ <;> decide +kernel

/-- Operands at the ends of the range of GF(8) and just above it. -/
theorem test_hyps_FieldAddAndMultiply :
    let s := State.withE (State.withE gf8 2 7) 3 8
    s.Configured ∧ (s.e[2] < 2 ^ s.field.m ∧ s.e[1] < 2 ^ s.field.m) ∧
    ¬ (s.e[2] < 2 ^ s.field.m ∧ s.e[3] < 2 ^ s.field.m) := by decide +kernel

theorem test_hyps_FieldInversePowerRoot :
    let s := State.withE (State.withE gf8 2 7) 3 8
    s.Configured ∧ (s.e[2] < 2 ^ s.field.m ∧ s.e[2] ≠ 0) ∧ (s.e[1] < 2 ^ s.field.m ∧ s.e[1] = 0) ∧
    2 ^ s.field.m ≤ s.e[3] := by decide +kernel

theorem test_hyps_FieldLaws :
    fieldOk 16 (⟨3, 0xB⟩ : Gf).m (⟨3, 0xB⟩ : Gf).f = true ∧ 7 < 2 ^ (⟨3, 0xB⟩ : Gf).m ∧ 7 ≠ 0 := by decide +kernel

/-- A product of degree 255, one of degree 256, and a zero operand. -/
theorem test_hyps_PolynomialSumAndProduct :
    let s := State.withP (State.withP (State.withP gf8 2 (pshift 128 [1])) 3 (pshift 127 [7])) 4 (pshift 128 [7])
    s.Configured ∧ s.PolyInField s.p[2] ∧ s.PolyInField s.p[3] ∧ s.PolyInField s.p[4] ∧
    deg s.p[2] + deg s.p[3] ≤ (s.caps.pcap : Int) - 1 ∧ s.p[5] = [] ∧
    ¬ (s.p[2] = [] ∨ s.p[4] = [] ∨ deg s.p[2] + deg s.p[4] ≤ (s.caps.pcap : Int) - 1) := by decide +kernel

theorem test_hyps_PolynomialDivision :
    let s := State.withP (State.withP gf8 3 [1, 0, 0, 1]) 4 [2, 1]
    s.Configured ∧ s.PolyInField s.p[3] ∧ s.PolyInField s.p[4] ∧ (1 : PReg) ≠ 2 ∧ s.p[4] ≠ [] ∧ s.p[5] = [] := by
  decide +kernel

theorem pmul_nil_right (F : Gf) (U : Poly) : pmul F U [] = [] := by
  induction U with
  | nil => rfl
  | cons a A ih => rw [pmul, ih]; rfl

/-- Modulo `x² + x + 1`: an invertible operand, one that is not; a constant modulus, the zero modulus. -/
theorem test_hyps_PolynomialInverse :
    let s := State.withP (State.withP (State.withP gf8 2 [0, 1]) 3 [1, 1, 1]) 5 [5]
    (s.Configured ∧ s.PolyInField s.p[2] ∧ s.PolyInField s.p[3] ∧ s.PolyInField s.p[4] ∧ s.PolyInField s.p[5] ∧
      1 ≤ deg s.p[3] ∧ deg s.p[5] = 0 ∧ s.p[4] = []) ∧
    (∃ U, allInF s.field U = true ∧ pmod s.field (pmul s.field U (pmod s.field s.p[2] s.p[3])) s.p[3] = [1]) ∧
    (¬ ∃ U, allInF s.field U = true ∧ pmod s.field (pmul s.field U (pmod s.field s.p[4] s.p[3])) s.p[3] = [1]) := by
  refine ⟨by decide +kernel, ⟨[1, 1], by decide +kernel, by decide +kernel⟩, ?_⟩
  rintro ⟨U, -, h⟩
  have h0 : pmod (Gf.mk 3 0xB) [] [1, 1, 1] = [] := by decide +kernel
  change pmod (Gf.mk 3 0xB) (pmul (Gf.mk 3 0xB) U (pmod (Gf.mk 3 0xB) [] [1, 1, 1])) [1, 1, 1] = [1] at h
  rw [h0, pmul_nil_right, h0] at h
  exact absurd h (by decide)

theorem test_hyps_PolynomialSplit :
    let s := State.withP gf8 3 [1, 2, 3, 4, 5]
    s.Configured ∧ s.PolyInField s.p[3] ∧ (1 : PReg) ≠ 2 := by decide +kernel

/-! GF(2) and its polynomial `x + 1`, a witness for the hypotheses on irreducible polynomials. -/

theorem pmul_zeros (F : Gf) (A V : Poly) (h : ∀ i, coeff A i = 0) (k : Nat) : coeff (pmul F A V) k = 0 := by
  induction A generalizing k with
  | nil => simp [pmul]
  | cons a A ih =>
    have h0 : a = 0 := by simpa using h 0
    rw [coeff_pmul_cons, h0, ih (fun i => by simpa using h (i + 1))]
    simp

theorem gf2_pmul (U V : Poly) (p q : Nat) (hU : allInF ⟨1, 3⟩ U = true) (hp : ∀ i, p < i → coeff U i = 0)
    (hV : coeff V q = 1) (hq : ∀ j, q < j → coeff V j = 0) : coeff (pmul ⟨1, 3⟩ U V) (p + q) = coeff U p := by
  induction U generalizing p with
  | nil => simp [pmul]
  | cons a A ih =>
    have h1 : gmul ⟨1, 3⟩ a 1 = a := by
      have : a < 2 := by simp_all [allInF, inF]
      interval_cases a <;> decide
    rw [coeff_pmul_cons]
    cases p with
    | zero =>
      rw [pmul_zeros _ A V fun i => by simpa using hp (i + 1) (by omega)]
      simp [hV, h1]
    | succ p =>
      rw [hq _ (by omega), if_neg (by omega), show p + 1 + q - 1 = p + q by omega,
        ih p (by simp_all [allInF]) fun i hi => by simpa using hp (i + 1) (by omega)]
      simp

theorem gf2_leading {A : Poly} (hA : allInF ⟨1, 3⟩ A = true) (hd : 1 ≤ deg A) : coeff A (deg A).toNat = 1 := by
  have h0 := coeff_deg_ne_zero (A := A) (by omega)
  have : coeff A (deg A).toNat < 2 := by
    simp only [coeff, List.getD_eq_getElem?_getD] at h0 ⊢
    cases h : A[(deg A).toNat]? with
    | none => simp_all
    | some x =>
      have := List.mem_of_getElem? h
      simp_all [allInF, inF]
  omega

theorem test_hyps_irreducible : IrreducibleOver ⟨1, 3⟩ [1, 1] := by
  refine ⟨by decide, ?_⟩
  rintro ⟨U, V, hU, hV, dU, dV, h⟩
  have := gf2_pmul U V (deg U).toNat (deg V).toNat hU (fun i hi => coeff_of_deg_lt (by omega)) (gf2_leading hV dV)
    (fun j hj => coeff_of_deg_lt (by omega))
  have h1 : deg (norm [1, 1]) = 1 := by decide
  rw [h, gf2_leading hU dU, coeff_of_deg_lt (by omega)] at this
  omega

/-- Over GF(2): the code of length 1 with `g = x + 1`, whose only codeword is 0; `r = 1` in M[0]. -/
def tiny : State :=
  State.withM (State.withP { State.over ready 1 3 with cfgN := 1 } 0 [1, 1]) 0 (mat 1 [[1]])

/-- An irreducible modulus, a nonzero constant and the zero modulus. -/
theorem test_hyps_PolynomialSquareRoot :
    let s := State.withP tiny 3 [1]
    (s.Configured ∧ s.PolyInField s.p[0] ∧ s.PolyInField s.p[3] ∧ s.PolyInField s.p[4] ∧ s.p[0] ≠ [] ∧ s.p[3] ≠ [] ∧
      deg s.p[3] = 0 ∧ s.p[4] = []) ∧ IrreducibleOver s.field s.p[0] :=
  ⟨by decide +kernel, test_hyps_irreducible⟩

theorem test_hyps_PolynomialEvaluationRootsIrreducibility :
    let s := State.withE codeA 3 7
    s.Configured ∧ s.PolyInField s.p[0] ∧ s.e[3] < 2 ^ s.field.m ∧ s.LengthOk ∧ s.SupportInField := by decide +kernel

/-- A coefficient, an element, a support entry of 8 over GF(8); N out of bounds. -/
theorem test_hyps_PolynomialOperandsOutOfRange :
    let s := State.withE (State.withP codeA 3 [8]) 3 8
    let u : State := { codeA with sup := [0, 1, 2, 3, 4, 5, 6, 8] }
    (s.Configured ∧ (1 : PReg) ≠ 2 ∧ ¬ s.PolyInField s.p[3] ∧ s.LengthOk ∧ 2 ^ s.field.m ≤ s.e[3]) ∧
    (u.Configured ∧ u.LengthOk ∧ ¬ u.SupportInField) ∧ (gf8.Configured ∧ ¬ gf8.LengthOk) := by
  refine ⟨?_, ?_, ?_⟩ <;> decide +kernel

/-- A matrix of 8192 columns, 2 × 3, 3 × 3, 2 × 3 and 0 × 3. -/
def shapes : State :=
  State.withM (State.withM (State.withM (State.withM ready 0 { cols := 8192, row := [1] }) 1 (mat 3 [[1, 0, 1], [0, 1, 1]])) 2
    (mat 3 [[1, 1, 0], [0, 1, 1], [1, 0, 1]])) 3 (mat 3 [])

theorem test_hyps_MatrixProductSumTransposeConcatenation :
    shapes.Inv ∧ shapes.m[1].cols = shapes.m[2].rows ∧
    (shapes.m[1].rows = shapes.m[1].rows ∧ shapes.m[1].cols = shapes.m[1].cols) ∧
    (shapes.m[0].cols ≤ shapes.caps.rmax ∧ shapes.m[0].rows ≤ shapes.caps.cmax) ∧
    shapes.m[1].cols + shapes.m[1].cols ≤ shapes.caps.cmax := by decide +kernel

/-- Each failure of the reference build; the CAPACITY of MTRANS and MNULL in a build with fewer rows than columns. -/
theorem test_hyps_MatrixShapeFailures :
    let b := { shapes with caps := { shapes.caps with rmax := 2, nmax := 1 } }
    shapes.m[1].cols ≠ shapes.m[1].rows ∧ shapes.m[1].rows ≠ shapes.m[2].rows ∧
    (shapes.m[0].rows = shapes.m[0].rows ∧ shapes.caps.cmax < shapes.m[0].cols + shapes.m[0].cols) ∧
    shapes.m[1].cols < (4#32).toNat ∧
    b.caps.rmax < b.m[1].cols ∧ b.caps.rmax < b.m[3].cols - (rref b.m[3] b.m[3].cols).rank := by decide +kernel

/-- Boundary columns 0 and 4; the second pivot of the reduction is column 1, so column 0 is left of it. -/
theorem test_hyps_RowReductionIsReduced :
    let A := mat 4 [[0, 1, 1, 0], [1, 1, 0, 1], [1, 0, 1, 1]]
    (0 ≤ A.cols ∧ 4 ≤ A.cols ∧ ∀ r ∈ A.row, r < 2 ^ A.cols) ∧ 1 < (rref A 4).rank ∧ 0 < (rref A 4).piv.getD 1 0 := by decide

theorem test_hyps_MrowredWritesReducedMatrix :
    ({ shapes with arg0 := 3 } : State).Inv ∧ ({ shapes with arg0 := 3 } : State).arg0.toNat ≤ shapes.m[1].cols := by
  decide +kernel

theorem test_hyps_MnullWritesNullSpaceBasis :
    shapes.Inv ∧ shapes.m[1].cols - (rref shapes.m[1] shapes.m[1].cols).rank ≤ shapes.caps.rmax ∧ 5 < 2 ^ shapes.m[1].cols := by
  decide +kernel

/-- A matrix with an inverse, and a square one without. -/
theorem test_hyps_MinvAndMdetDecideInvertibility :
    let s := State.withM (State.withM ready 1 (mat 3 [[1, 1, 0], [0, 1, 1], [1, 0, 0]])) 2 (mat 1 [[0]])
    (s.Inv ∧ s.m[1].rows = s.m[1].cols ∧ s.m[2].rows = s.m[2].cols) ∧
    (∃ B : Mat, B.rows = s.m[1].rows ∧ B.cols = s.m[1].rows ∧ matMul s.m[1] B = matId s.m[1].rows) ∧
    (¬ ∃ B : Mat, B.rows = s.m[2].rows ∧ B.cols = s.m[2].rows ∧ matMul s.m[2] B = matId s.m[2].rows) := by
  refine ⟨by decide +kernel, ⟨mat 3 [[0, 0, 1], [1, 0, 1], [1, 1, 1]], by decide +kernel⟩, ?_⟩
  rintro ⟨⟨c, rows⟩, hr, -, h⟩
  have hz : selectRows 0 rows = 0 := by
    obtain ⟨x, rfl⟩ := List.length_eq_one_iff.1 hr
    simp [selectRows]
  change Mat.mk c [selectRows 0 rows] = matId 1 at h
  rw [hz] at h
  injection h with _ h
  exact absurd h (by decide)

/-- Code A; and a build whose RMAX is below `t·m`. -/
theorem test_hyps_PcheckWritesParityCheckMatrix :
    let b := { codeA with caps := { codeA.caps with rmax := 5 } }
    (codeA.Configured ∧ codeA.LengthOk ∧ codeA.GoppaOk codeA.p[0] ∧ (deg codeA.p[0]).toNat * codeA.field.m ≤ codeA.caps.rmax) ∧
    (b.Configured ∧ b.LengthOk ∧ b.GoppaOk b.p[0] ∧ b.caps.rmax < (deg b.p[0]).toNat * b.field.m) := by
  refine ⟨?_, ?_⟩ <;> decide +kernel

/-- The received vector of code A, the zero vector, and a vector without a 1 at the last position. -/
theorem test_hyps_SyndWritesSyndrome :
    let s := State.withM codeA 3 (mat 8 [[0]])
    (s.Configured ∧ s.LengthOk ∧ s.GoppaOk s.p[0]) ∧ (s.Received s.m[2] ∧ s.Received s.m[3] ∧ s.m[3].rowAt 0 = 0) ∧
    (127 < 2 ^ s.cfgN.toNat ∧ 7 < s.cfgN.toNat ∧ (127 : Nat).testBit 7 = false) := by
  refine ⟨?_, ?_, ?_⟩ <;> decide +kernel

theorem test_hyps_ParityCheckIsSyndrome :
    let F : Gf := ⟨3, 0xB⟩
    let sup := [0, 1, 2, 3, 4, 5, 6, 7]
    fieldOk 16 F.m F.f = true ∧ allInF F [1, 1, 1] = true ∧ allInF F sup = true ∧ 1 ≤ deg [1, 1, 1] ∧
    (∀ α ∈ sup, peval F [1, 1, 1] α ≠ 0) ∧ 255 < 2 ^ sup.length := by decide +kernel

/-- A proper operand, a constant `g`, and a coefficient out of range. -/
theorem test_hyps_LatredWritesShortPair :
    let s := State.withP (State.withP (State.withP codeA 3 [4, 3]) 4 [7]) 5 [8]
    s.Configured ∧ (1 : PReg) ≠ 2 ∧ s.PolyInField s.p[3] ∧ s.PolyInField s.p[0] ∧ 1 ≤ deg s.p[0] ∧
    s.PolyInField s.p[4] ∧ deg s.p[4] < 1 ∧ ¬ s.PolyInField s.p[5] := by decide +kernel

/-- A codeword pending with either policy, `G` in M[1]. -/
theorem test_hyps_ZeroSyndromePolicy (zs : Bool) :
    let s := busyWith codeword 0x00402363 zs
    (s.Configured ∧ s.LengthOk ∧ s.Received s.m[2] ∧ s.GoppaOk s.p[0]) ∧
    (s.pend = .run 0x00402363 zs ∧ synd s.field s.p[0] (s.m[2].rowAt 0) s.support = .ok []) ∧
    ((4 : MReg) ≠ 5 ∧ s.m[1].cols = s.cfgN.toNat ∧ s.m[1].rows ≤ s.caps.cmax) := by
  cases zs <;> refine ⟨?_, ?_, ?_⟩ <;> decide +kernel

/-- A decoding that succeeds and one that fails. -/
theorem test_hyps_PattersonCorrectsAtLocatorRoots :
    let s := State.withM codeA 3 (mat 8 [[1, 0, 0, 0, 1, 1, 1, 1]])
    (s.Configured ∧ s.LengthOk ∧ s.GoppaOk s.p[0] ∧ s.Received s.m[2] ∧ s.Received s.m[3]) ∧
    patterson s.field s.p[0] (s.m[2].rowAt 0) s.support s.sampledZs = .ok ⟨0b11111100, [2, 1], 1⟩ ∧
    patterson s.field s.p[0] (s.m[3].rowAt 0) s.support s.sampledZs = .error .decodeFailure := by
  refine ⟨?_, ?_, ?_⟩ <;> decide +kernel

/-- The same two vectors, with `G` in M[1]. -/
theorem test_hyps_DecodeRecoversTheMessage :
    let s := State.withM codeA 3 (mat 8 [[1, 0, 0, 0, 1, 1, 1, 1]])
    (s.Configured ∧ s.LengthOk ∧ s.GoppaOk s.p[0] ∧ s.Received s.m[2] ∧ s.Received s.m[3] ∧ (4 : MReg) ≠ 5 ∧
      s.m[1].cols = s.cfgN.toNat ∧ s.m[1].rows ≤ s.caps.cmax) ∧
    patterson s.field s.p[0] (s.m[2].rowAt 0) s.support s.sampledZs = .ok ⟨0b11111100, [2, 1], 1⟩ ∧
    patterson s.field s.p[0] (s.m[3].rowAt 0) s.support s.sampledZs = .error .decodeFailure ∧
    ((∀ u, u < 2 ^ s.m[1].rows → selectRows u s.m[1].row = 0 → u = 0) ∧ 3 < 2 ^ s.m[1].rows ∧
      selectRows 3 s.m[1].row = 0b11111100) := by
  refine ⟨?_, ?_, ?_, ?_⟩ <;> decide +kernel

theorem test_hyps_PattersonCorrectsUpToDegreeErrors :
    (tiny.Configured ∧ tiny.LengthOk ∧ tiny.GoppaOk tiny.p[0]) ∧ IrreducibleOver tiny.field tiny.p[0] ∧
    (tiny.support.Nodup ∧ 0 < 2 ^ tiny.cfgN.toNat ∧ 1 < 2 ^ tiny.cfgN.toNat ∧
      synd tiny.field tiny.p[0] 0 tiny.support = .ok [] ∧ tiny.m[0] = { cols := tiny.cfgN.toNat, row := [0 ^^^ 1] }) ∧
    (1 ≤ ((List.range tiny.cfgN.toNat).filter fun j => (1 : Nat).testBit j).length ∧
      (((List.range tiny.cfgN.toNat).filter fun j => (1 : Nat).testBit j).length : Int) ≤ deg tiny.p[0]) := by
  refine ⟨?_, test_hyps_irreducible, ?_, ?_⟩ <;> decide +kernel

/-! One state per failure of the Goppa commands: N, the length, the shape of `G` (its columns; its rows in a build with RMAX above CMAX),
a coefficient, a support entry, the degree, a root. -/

theorem test_hyps_GoppaChecksInOrder :
    (codeA.status.cfgValid = true ∧ (4 : MReg) ≠ 5 ∧ codeA.LengthOk ∧ codeA.Received codeA.m[2]) ∧
    ¬ ({ codeA with cfgN := 9 } : State).LengthOk := by refine ⟨?_, ?_⟩ <;> decide +kernel

theorem test_hyps_GoppaChecksInOrder_shapes :
    let short := State.withM codeA 2 (mat 7 [[1]])
    let narrow := { codeA with caps := { codeA.caps with cmax := 32, nmax := 8 }, m := codeA.m.set 1 ⟨8, List.replicate 33 0⟩ }
    (short.LengthOk ∧ ¬ short.Received short.m[2]) ∧ codeA.m[0].cols ≠ codeA.cfgN.toNat ∧
    (narrow.LengthOk ∧ narrow.Received narrow.m[2] ∧ narrow.m[1].cols = narrow.cfgN.toNat ∧
      narrow.caps.cmax < narrow.m[1].rows) := by refine ⟨?_, ?_, ?_⟩ <;> decide +kernel

theorem test_hyps_GoppaChecksInOrder_ranges :
    let coefficient := State.withP codeA 0 [1, 1, 8]
    let entry : State := { codeA with sup := [0, 1, 2, 3, 4, 5, 6, 8] }
    (coefficient.LengthOk ∧ coefficient.Received coefficient.m[2] ∧ coefficient.m[1].cols = coefficient.cfgN.toNat ∧
      coefficient.m[1].rows ≤ coefficient.caps.cmax ∧ ¬ (coefficient.PolyInField coefficient.p[0] ∧ coefficient.SupportInField)) ∧
    (entry.LengthOk ∧ ¬ (entry.PolyInField entry.p[0] ∧ entry.SupportInField)) := by refine ⟨?_, ?_⟩ <;> decide +kernel

theorem test_hyps_GoppaChecksInOrder_polynomial :
    let flat := State.withP codeA 0 [5]
    let root := State.withP codeA 0 [1, 1]
    (flat.PolyInField flat.p[0] ∧ flat.SupportInField ∧ deg flat.p[0] < 1) ∧
    (root.PolyInField root.p[0] ∧ root.SupportInField ∧ 1 ≤ deg root.p[0]) ∧
    ∃ j, j < root.cfgN.toNat ∧ peval root.field root.p[0] (Memory.read root.sup j) = 0 := by
  refine ⟨?_, ?_, 1, ?_⟩ <;> decide +kernel

end Sys2Proof.Tests
end

section
/-! PROOFS. Host accesses: the undefined ones, the element the data port selects, and its rejected accesses (20_memory.md R62-R71). -/

namespace Sys2Proof.Machine

/-! ## Undefined accesses -/

/-- The complement of the one shape of access the window defines (20_memory.md R62). -/
theorem access_defined_eq_false_iff (a : Access) :
    a.defined = false ↔ a.width ≠ .word ∨ a.off.toNat % 4 ≠ 0 := by
  simp [Access.defined, imp_iff_not_or]

/-- `hostAccess_undefined` with the kind known: a read. -/
theorem hostAccess_undefined_read {a : Access} (s : State) (h : a.defined = false) (hk : a.kind = .read) :
    hostAccess s a = { s.setAerr with rdata := 0 } := by
  simp [hostAccess, h, hk]

/-- `hostAccess_undefined` with the kind known: a write. -/
theorem hostAccess_undefined_write {a : Access} (s : State) (h : a.defined = false) (hk : a.kind ≠ .read) :
    hostAccess s a = s.setAerr := by
  cases hw : a.kind with
  | read => exact absurd hw hk
  | write v => simp [hostAccess, h, hw]

/-- Settles O20: an access that fails either test of R62 is undefined, and its kind decides the effect. -/
theorem undefinedAccessesOnlySetAerr : Obligations.UndefinedAccessesOnlySetAerr := by
  intro s a h
  have hu : a.defined = false := (access_defined_eq_false_iff a).2 h
  exact ⟨hostAccess_undefined_read s hu, hostAccess_undefined_write s hu⟩

/-! ## The element DSEL and DIDX select, space by space (20_memory.md R63, R70) -/

theorem selectedElement_space_e {s : State} (h : s.dsel.space = 0) :
    selectedElement s = if s.didx.toNat < 16 then some (.e (Fin.ofNat 16 s.didx.toNat)) else none := by
  simp [selectedElement, h]

theorem selectedElement_space_p {s : State} (h : s.dsel.space = 1) :
    selectedElement s =
      if s.didx.toNat < s.caps.pcap then some (.p (Fin.ofNat 16 s.dsel.reg.toNat) s.didx.toNat) else none := by
  simp [selectedElement, h]

theorem selectedElement_space_mdata {s : State} (h : s.dsel.space = 2) :
    selectedElement s = (selectedM s).bind fun r =>
      if s.didx.toNat < s.caps.rmax * s.caps.wpr then
        some (.mdata r (s.didx.toNat / s.caps.wpr) (s.didx.toNat % s.caps.wpr)) else none := by
  simp only [selectedElement, h]
  cases selectedM s <;> rfl

theorem selectedElement_space_mdim {s : State} (h : s.dsel.space = 3) :
    selectedElement s = (selectedM s).bind fun r =>
      if s.didx.toNat = 0 then some (.mrows r) else if s.didx.toNat = 1 then some (.mcols r) else none := by
  simp only [selectedElement, h]
  cases selectedM s <;> rfl

theorem selectedElement_space_sup {s : State} (h : s.dsel.space = 4) :
    selectedElement s = if s.didx.toNat < s.caps.nmax then some (.sup s.didx.toNat) else none := by
  simp [selectedElement, h]

theorem selectedElement_space_pdeg {s : State} (h : s.dsel.space = 5) :
    selectedElement s = if s.didx.toNat < 16 then some (.pdeg (Fin.ofNat 16 s.didx.toNat)) else none := by
  simp [selectedElement, h]

theorem selectedElement_space_reserved {s : State} (h : 6 ≤ s.dsel.space.toNat) : selectedElement s = none := by
  obtain h6 | h7 : s.dsel.space = 6 ∨ s.dsel.space = 7 := by bv_omega
  · simp [selectedElement, h6]
  · simp [selectedElement, h7]

theorem selectedM_eq_none {s : State} (h : 8 ≤ s.dsel.reg.toNat) : selectedM s = none :=
  if_neg (Nat.not_lt.2 h)

/-! ## Data-port accesses while idle (20_memory.md R70, R71) -/

theorem busy_eq_false_iff (s : State) : s.busy = false ↔ s.pend = .none := by simp [State.busy]

/-- AUTOINC in the words of the statements. -/
theorem autoInc_eq (s : State) : s.autoInc = { s with didx := s.nextDidx } := by
  unfold State.autoInc State.nextDidx
  split <;> rfl

theorem readData_rejected {s : State} (hidle : s.pend = .none) (hsel : selectedElement s = none) :
    readData s = (0, s.setAerr.autoInc) := by
  simp [readData, (busy_eq_false_iff s).2 hidle, hsel]

theorem writeData_rejected {s : State} (v : Word) (hidle : s.pend = .none) (hsel : selectedElement s = none) :
    writeData s v = s.setAerr.autoInc := by
  simp [writeData, (busy_eq_false_iff s).2 hidle, hsel]

/-- A DDATA read goes to the data port. -/
theorem hostAccess_ddata_read (s : State) :
    hostAccess s { off := 0x48, width := .word, kind := .read } =
      { (readData s).2 with rdata := (readData s).1 } := rfl

/-- A DDATA write goes to the data port. -/
theorem hostAccess_ddata_write (s : State) (v : Word) :
    hostAccess s { off := 0x48, width := .word, kind := .write v } = writeData s v := by
  simp [hostAccess, Access.defined, busWrite]

/-- Settles O27: each case of R70 selects no element, and a rejected access sets AERR and performs AUTOINC. -/
theorem rejectedPortAccesses : Obligations.RejectedPortAccesses := by
  intro s v hidle hout
  have hsel : selectedElement s = none := by
    obtain hs | ⟨hs | hs, hi⟩ | ⟨hs, hi⟩ | ⟨hs | hs, hr⟩ | ⟨hs, hi⟩ | ⟨hs, hi⟩ | ⟨hs, hi⟩ := hout
    · exact selectedElement_space_reserved hs
    · rw [selectedElement_space_e hs, if_neg (Nat.not_lt.2 hi)]
    · rw [selectedElement_space_pdeg hs, if_neg (Nat.not_lt.2 hi)]
    · rw [selectedElement_space_p hs, if_neg (Nat.not_lt.2 hi)]
    · rw [selectedElement_space_mdata hs, selectedM_eq_none hr, Option.bind_none]
    · rw [selectedElement_space_mdim hs, selectedM_eq_none hr, Option.bind_none]
    · simp [selectedElement_space_mdata hs, Nat.not_lt.2 hi]
    · have h0 : s.didx.toNat ≠ 0 := by omega
      have h1 : s.didx.toNat ≠ 1 := by omega
      simp [selectedElement_space_mdim hs, h0, h1]
    · rw [selectedElement_space_sup hs, if_neg (Nat.not_lt.2 hi)]
  constructor
  · rw [hostAccess_ddata_read, readData_rejected hidle hsel, autoInc_eq]
    rfl
  · rw [hostAccess_ddata_write, writeData_rejected v hidle hsel, autoInc_eq]
    rfl

end Sys2Proof.Machine
end

section
/-! PROOFS. A host write of CMD: the issue of a command while idle and its drop while busy (40_system.md R111,
70_reset_and_hazards.md R283). -/

namespace Sys2Proof.Machine

theorem busy_eq_true_iff (s : State) : s.busy = true ↔ s.pend ≠ .none := by simp [State.busy]

/-- A word write at CMD's offset is defined (20_memory.md R62) and goes to the command register. -/
theorem hostAccess_cmd_write (s : State) (v : Word) :
    hostAccess s { off := 0x1C, width := .word, kind := .write v } = writeCmd s v := by
  simp [hostAccess, Access.defined, busWrite]

theorem writeCmd_idle {s : State} (v : Word) (hidle : s.pend = .none) : writeCmd s v = s.issue v := by
  simp [writeCmd, (busy_eq_false_iff s).2 hidle]

theorem writeCmd_busy {s : State} (v : Word) (hbusy : s.pend ≠ .none) : writeCmd s v = s.setOvr :=
  if_pos ((busy_eq_true_iff s).2 hbusy)

/-- Settles O17: PEND alone decides whether the write is an issue, `State.issue`, or only sets OVR, `State.setOvr`. -/
theorem cmdWriteIssuesOrIsDropped : Obligations.CmdWriteIssuesOrIsDropped := by
  intro s v
  rw [hostAccess_cmd_write]
  constructor
  · intro hidle
    rw [writeCmd_idle v hidle, State.issue]
  · intro hbusy
    rw [writeCmd_busy v hbusy, State.setOvr]

end Sys2Proof.Machine
end

section
/-! PROOFS. Host writes of the configuration and argument registers, the data port while busy, its selectors, and the writes
that no register takes (10_state.md R21-R47, 70_reset_and_hazards.md R284-R287). -/

namespace Sys2Proof.Machine

/-- A word write at a multiple of 4 is defined (20_memory.md R62) and goes to the register at its offset. -/
theorem hostAccess_word_write (s : State) (v : Word) {off : BitVec 8} (haligned : off.toNat % 4 = 0) :
    hostAccess s { off := off, width := .word, kind := .write v } = busWrite s off.toNat v := by
  simp [hostAccess, Access.defined, haligned]

/-! ## CFG_M, CFG_FMOD, CFG_N and ARG0 -/

theorem writeCfgM_idle {s : State} (v : Word) (hidle : s.pend = .none) :
    writeCfgM s v = { s.setCfgValid false with cfgM := v.setWidth 5 } := by
  simp [writeCfgM, (busy_eq_false_iff s).2 hidle]

theorem writeCfgFmod_idle {s : State} (v : Word) (hidle : s.pend = .none) :
    writeCfgFmod s v = { s.setCfgValid false with cfgFmod := v } := by
  simp [writeCfgFmod, (busy_eq_false_iff s).2 hidle]

theorem writeCfgN_idle {s : State} (v : Word) (hidle : s.pend = .none) : writeCfgN s v = { s with cfgN := v } := by
  simp [writeCfgN, (busy_eq_false_iff s).2 hidle]

theorem writeArg0_idle {s : State} (v : Word) (hidle : s.pend = .none) : writeArg0 s v = { s with arg0 := v } := by
  simp [writeArg0, (busy_eq_false_iff s).2 hidle]

/-- Each of the four registers asks BUSY before it takes the value (70_reset_and_hazards.md R284). -/
theorem hostAccess_configArg_write_busy {s : State} (v : Word) {off : BitVec 8} (hbusy : s.pend ≠ .none)
    (hoff : off ∈ [0x24#8, 0x28#8, 0x2C#8, 0x30#8]) :
    hostAccess s { off := off, width := .word, kind := .write v } = s.setOvr := by
  have hb : s.busy = true := (busy_eq_true_iff s).2 hbusy
  simp only [List.mem_cons, List.not_mem_nil, or_false] at hoff
  obtain rfl | rfl | rfl | rfl := hoff <;> rw [hostAccess_word_write s v (by decide)]
  · exact if_pos hb
  · exact if_pos hb
  · exact if_pos hb
  · exact if_pos hb

/-- Settles O18: while busy each of the four writes is `State.setOvr`; while idle each stores its value, CFG_M the low five bits. -/
theorem configAndArgumentWrites : Obligations.ConfigAndArgumentWrites := by
  intro s v
  constructor
  · intro hbusy off hoff
    exact hostAccess_configArg_write_busy v hbusy hoff
  · intro hidle
    refine ⟨?cfgM, ?cfgFmod, ?cfgN, ?arg0⟩ <;> rw [hostAccess_word_write s v (by decide)]
    case cfgM =>
      rw [← BitVec.setWidth_eq_extractLsb' (by decide)]
      exact writeCfgM_idle v hidle
    case cfgFmod => exact writeCfgFmod_idle v hidle
    case cfgN => exact writeCfgN_idle v hidle
    case arg0 => exact writeArg0_idle v hidle

/-! ## DDATA while busy, and the writes that change nothing -/

theorem readData_busy {s : State} (hbusy : s.pend ≠ .none) : readData s = (0, s.setOvr) :=
  if_pos ((busy_eq_true_iff s).2 hbusy)

theorem writeData_busy {s : State} (v : Word) (hbusy : s.pend ≠ .none) : writeData s v = s.setOvr :=
  if_pos ((busy_eq_true_iff s).2 hbusy)

/-- The offsets of the registers a host write reaches (10_state.md R21). -/
def writableOffsets : List Nat := [0x14, 0x18, 0x1C, 0x24, 0x28, 0x2C, 0x30, 0x40, 0x44, 0x48]

theorem busWrite_of_notMem_writableOffsets (s : State) (v : Word) {off : Nat} (h : off ∉ writableOffsets) :
    busWrite s off v = s := by
  unfold busWrite
  split
  case h_11 => rfl
  all_goals exact absurd (by decide) h

/-- The read-only registers of 10_state.md R21 and everything past DDATA (R47). -/
theorem notMem_writableOffsets {off : BitVec 8}
    (h : off ∈ [0x00#8, 0x04#8, 0x08#8, 0x0C#8, 0x10#8, 0x20#8, 0x34#8, 0x38#8, 0x3C#8] ∨ 0x4C ≤ off.toNat) :
    off.toNat ∉ writableOffsets := by
  obtain hreadOnly | hreserved := h
  · revert off
    decide
  · intro hmem
    simp only [writableOffsets, List.mem_cons, List.not_mem_nil, or_false] at hmem
    omega

/-- Settles O19: BUSY decides the two DDATA accesses, DSEL and DIDX never ask it, and no other offset of the statement is writable. -/
theorem dataPortWhileBusy : Obligations.DataPortWhileBusy := by
  intro s v
  refine ⟨?ddata, ?didx, ⟨dselOfWord v, ?dsel, rfl, rfl, rfl⟩, ?ignored⟩
  case ddata =>
    intro hbusy
    rw [hostAccess_ddata_read, hostAccess_ddata_write, readData_busy hbusy, writeData_busy v hbusy]
    exact ⟨rfl, rfl⟩
  case didx => exact hostAccess_word_write s v (by decide)
  case dsel => exact hostAccess_word_write s v (by decide)
  case ignored =>
    intro off haligned hoff
    rw [hostAccess_word_write s v haligned]
    exact busWrite_of_notMem_writableOffsets s v (notMem_writableOffsets hoff)

end Sys2Proof.Machine
end

section
/-! PROOFS. The decoder and the encoder are inverse to each other (30_encoding.md R91-R97), on words and on the byte lanes of the bus
(20_memory.md R61). -/

namespace Sys2Proof

/-! ## Register numbers in fields -/

@[simp] theorem ofByte_byte (o : Opcode) : Opcode.ofByte o.byte = some o := by cases o <;> rfl

/-- The opcode a byte names has that byte (30_encoding.md R96). -/
theorem byte_of_ofByte {b : Byte} {o : Opcode} (h : Opcode.ofByte b = some o) : o.byte = b := by
  simpa using List.find?_some h

/-- A byte names no opcode exactly when it is no opcode's byte (30_encoding.md R94). -/
theorem ofByte_eq_none_iff (b : Byte) : Opcode.ofByte b = none ↔ ∀ o : Opcode, o.byte ≠ b := by
  constructor
  · rintro h o rfl
    simp at h
  · intro h
    cases hb : Opcode.ofByte b with
    | none => rfl
    | some o => exact absurd (byte_of_ofByte hb) (h o)

theorem ofNat_regField16 (a : Fin 16) : Fin.ofNat 16 (regField a).toNat = a := by
  revert a
  decide

theorem ofNat_regField8 (a : Fin 8) : Fin.ofNat 8 (regField a).toNat = a := by
  revert a
  decide

@[simp] theorem legal_m_regField (a : Fin 8) : FieldKind.m.legal (regField a) = true := by
  revert a
  decide

@[simp] theorem legal_e (v : BitVec 4) : FieldKind.e.legal v = true := rfl

@[simp] theorem legal_p (v : BitVec 4) : FieldKind.p.legal v = true := rfl

@[simp] theorem legal_unused_iff (v : BitVec 4) : FieldKind.unused.legal v = true ↔ v = 0 := by simp [FieldKind.legal]

@[simp] theorem regField_zero : regField 0 = 0 := rfl

/-! ## The fields of a command's word -/

@[simp] theorem wordField_encode_a (i : Instr) : wordField (encode i) 0 = regField i.fields.1 := wordField_packWord_a ..

@[simp] theorem wordField_encode_b (i : Instr) : wordField (encode i) 1 = regField i.fields.2.1 := wordField_packWord_b ..

@[simp] theorem wordField_encode_c (i : Instr) : wordField (encode i) 2 = regField i.fields.2.2.1 := wordField_packWord_c ..

@[simp] theorem wordField_encode_d (i : Instr) : wordField (encode i) 3 = regField i.fields.2.2.2.1 := wordField_packWord_d ..

@[simp] theorem wordField_encode_e (i : Instr) : wordField (encode i) 4 = regField i.fields.2.2.2.2 := wordField_packWord_e ..

/-- The word of a command passes the checks of 30_encoding.md R93 step 2. -/
theorem legalFields_encode (i : Instr) : i.opcode.legalFields (encode i) = true := by
  cases i <;> simp [Opcode.legalFields, Opcode.kinds, Instr.opcode, Instr.fields, List.zipIdx]

/-- The fields of a command's word name the command (30_encoding.md R96). -/
theorem instr_encode (i : Instr) : i.opcode.instr (encode i) = i := by
  cases i <;> simp [Opcode.instr, Instr.opcode, Instr.fields, wordReg16, wordReg8, ofNat_regField16, ofNat_regField8,
    -Fin.ofNat_eq_cast]

/-- Settles O1: the opcode byte names the command's opcode, its fields are legal there, and they name the operands. -/
theorem encodedCommandsDecode : Obligations.EncodedCommandsDecode := by
  intro i
  simp [decodeWord, legalFields_encode, instr_encode]

/-! ## The word of a decoded command -/

/-- A word with its reserved bits 0 is the pack of its fields (30_encoding.md R91, R97). -/
theorem packWord_fields {w : Word} (hrsv : wordField w 5 = 0) :
    packWord (wordOp w) (wordField w 0) (wordField w 1) (wordField w 2) (wordField w 3) (wordField w 4) = w := by
  have hbit (k : Nat) (hk : k < 4) : w.getLsbD (28 + k) = false := by
    have := congrArg (fun v : BitVec 4 => v.getLsbD k) hrsv
    simpa [wordField, hk] using this
  ext i hi
  have h28 := hbit 0
  have h29 := hbit 1
  have h30 := hbit 2
  have h31 := hbit 3
  interval_cases i <;> simp_all [packWord, getElem_atBit, wordOp, wordField]

@[simp] theorem regField_wordReg16 (w : Word) (k : Nat) : regField (wordReg16 w k) = wordField w k := by
  apply BitVec.eq_of_toNat_eq
  simp only [regField, wordReg16, Fin.ofNat, BitVec.toNat_ofNat]
  omega

theorem regField_wordReg8 {w : Word} {k : Nat} (h : FieldKind.m.legal (wordField w k) = true) :
    regField (wordReg8 w k) = wordField w k := by
  have h8 : (wordField w k).toNat < 8 := by simpa [FieldKind.legal] using h
  apply BitVec.eq_of_toNat_eq
  simp only [regField, wordReg8, Fin.ofNat, BitVec.toNat_ofNat]
  omega

/-- Encoding the command that a word with legal fields names gives the word. -/
theorem encode_instr {o : Opcode} {w : Word} (hop : o.byte = wordOp w) (hlegal : o.legalFields w = true) :
    encode (o.instr w) = w := by
  simp only [Opcode.legalFields, Bool.and_eq_true, beq_iff_eq] at hlegal
  obtain ⟨hrsv, hfields⟩ := hlegal
  refine Eq.trans ?_ (packWord_fields hrsv)
  rw [← hop]
  cases o <;>
    simp_all [Opcode.instr, Opcode.kinds, encode, Instr.fields, Instr.opcode, regField_wordReg8, List.zipIdx]

/-- What a decoded word is: its byte names an opcode, and its fields are legal there. -/
theorem decodeWord_eq_ok_iff (w : Word) (i : Instr) :
    decodeWord w = .ok i ↔ ∃ o, Opcode.ofByte (wordOp w) = some o ∧ o.legalFields w = true ∧ o.instr w = i := by
  unfold decodeWord
  cases Opcode.ofByte (wordOp w) with
  | none => simp
  | some o => by_cases hl : o.legalFields w = true <;> simp [hl]

/-- Settles O2: a decoded word passes the checks of R93, and then it is the pack of the fields it was read from. -/
theorem decodedWordsReencode : Obligations.DecodedWordsReencode := by
  intro w i h
  obtain ⟨o, hop, hlegal, rfl⟩ := (decodeWord_eq_ok_iff w i).1 h
  exact encode_instr (byte_of_ofByte hop) hlegal

/-- Settles O3: four lanes carry the word (`wordOfLanes_lanes`), and the word decodes. -/
theorem byteLanesCarryCommands : Obligations.ByteLanesCarryCommands := by
  intro i rest
  have h : encodeBytes i ++ rest = laneOfWord (encode i) 0 :: laneOfWord (encode i) 1 :: laneOfWord (encode i) 2 ::
    laneOfWord (encode i) 3 :: rest := rfl
  simp only [h, decodeBytes, wordOfLanes_lanes, encodedCommandsDecode i]

/-- Settles O4: the decoder evaluated on the seven words. -/
theorem writtenOutWordsDecode : Obligations.WrittenOutWordsDecode := by
  unfold Obligations.WrittenOutWordsDecode
  decide

end Sys2Proof
end

section
/-! PROOFS. What a host access can do to the block, said once (20_memory.md R60-R72, 70_reset_and_hazards.md R283-R287). -/

namespace Sys2Proof.Machine

/-- The state after an access that touches no storage, no command and no configuration: `u` is `s` but for CTRL, DSEL, DIDX, OVR,
AERR and the value read. -/
def OnlyHostSide (s u : State) : Prop :=
  u = { s with
    ctrl := u.ctrl
    dsel := u.dsel
    didx := u.didx
    rdata := u.rdata
    status := { s.status with ovr := u.status.ovr, aerr := u.status.aerr } }

/-- Everything a host access `a` can do in `s`. -/
inductive HostEffect (s : State) (a : Access) : State → Prop
  /-- the access leaves storage, configuration, command and error record alone -/
  | quiet {u : State} (h : OnlyHostSide s u) : HostEffect s a u
  /-- CTRL with bit 0 set (10_state.md R25) -/
  | softReset {v : Word} (ha : a = { off := 0x14, width := .word, kind := .write v }) (hv : v.getLsbD 0 = true) :
    HostEffect s a s.resetBlock
  /-- STATUS write-1-to-clear (10_state.md R26) -/
  | statusWrite {v : Word} (ha : a = { off := 0x18, width := .word, kind := .write v }) : HostEffect s a (s.writeStatus v)
  /-- issue of a command while idle (40_system.md R111) -/
  | issue (v : Word) (hidle : s.pend = .none) : HostEffect s a (s.issue v)
  /-- CFG_M, CFG_FMOD, CFG_N or ARG0 while idle; a field that stays active has its degree and modulus unchanged -/
  | configure {u : State} (hidle : s.pend = .none)
    (h : u = { s with
      cfgM := u.cfgM
      cfgFmod := u.cfgFmod
      cfgN := u.cfgN
      arg0 := u.arg0
      status := { s.status with cfgValid := u.status.cfgValid } })
    (hvalid : u.status.cfgValid = true → s.status.cfgValid = true ∧ u.cfgM = s.cfgM ∧ u.cfgFmod = s.cfgFmod) :
    HostEffect s a u
  /-- a data-port write of the selected element while idle -/
  | store (v : Word) (el : PortElement) (hidle : s.pend = .none) (hel : selectedElement s = some el) :
    HostEffect s a (writeElement s v el).autoInc

theorem onlyHostSide_setOvr (s : State) : OnlyHostSide s s.setOvr := rfl

theorem onlyHostSide_setAerr (s : State) : OnlyHostSide s s.setAerr := rfl

theorem onlyHostSide_autoInc {s u : State} (h : OnlyHostSide s u) : OnlyHostSide s u.autoInc := by
  rw [autoInc_eq, OnlyHostSide, h]

theorem onlyHostSide_rdata {s u : State} (h : OnlyHostSide s u) (r : Word) : OnlyHostSide s { u with rdata := r } := by
  rw [OnlyHostSide, h]

theorem onlyHostSide_readData (s : State) : OnlyHostSide s (readData s).2 := by
  unfold readData
  split
  · exact onlyHostSide_setOvr s
  · split
    · exact onlyHostSide_autoInc (onlyHostSide_setAerr s)
    · exact onlyHostSide_autoInc rfl

theorem hostEffect_writeData (s : State) (a : Access) (v : Word) : HostEffect s a (writeData s v) := by
  by_cases hidle : s.pend = .none
  · cases hel : selectedElement s with
    | none =>
      rw [writeData_rejected v hidle hel]
      exact .quiet (onlyHostSide_autoInc (onlyHostSide_setAerr s))
    | some el =>
      have : writeData s v = (writeElement s v el).autoInc := by simp [writeData, (busy_eq_false_iff s).2 hidle, hel]
      rw [this]
      exact .store v el hidle hel
  · rw [writeData_busy v hidle]
    exact .quiet (onlyHostSide_setOvr s)

/-- What each register does with a word written to it. -/
theorem hostEffect_busWrite (s : State) (off : BitVec 8) (v : Word) :
    HostEffect s { off := off, width := .word, kind := .write v } (busWrite s off.toNat v) := by
  have hoff {k : Nat} (hk : k < 256) (h : off.toNat = k) : off = BitVec.ofNat 8 k := by bv_omega
  unfold busWrite
  split
  case h_1 h =>
    obtain rfl := hoff (by decide) h
    unfold writeCtrl
    split
    · exact .softReset rfl ‹_›
    · exact .quiet rfl
  case h_2 h =>
    obtain rfl := hoff (by decide) h
    exact .statusWrite rfl
  case h_3 =>
    by_cases hidle : s.pend = .none
    · rw [writeCmd_idle v hidle]
      exact .issue v hidle
    · rw [writeCmd_busy v hidle]
      exact .quiet rfl
  case h_4 =>
    by_cases hidle : s.pend = .none
    · rw [writeCfgM_idle v hidle]
      exact .configure hidle rfl (by simp)
    · exact .quiet (by rw [writeCfgM, if_pos ((busy_eq_true_iff s).2 hidle)]; rfl)
  case h_5 =>
    by_cases hidle : s.pend = .none
    · rw [writeCfgFmod_idle v hidle]
      exact .configure hidle rfl (by simp)
    · exact .quiet (by rw [writeCfgFmod, if_pos ((busy_eq_true_iff s).2 hidle)]; rfl)
  case h_6 =>
    by_cases hidle : s.pend = .none
    · rw [writeCfgN_idle v hidle]
      exact .configure hidle rfl fun h => ⟨h, rfl, rfl⟩
    · exact .quiet (by rw [writeCfgN, if_pos ((busy_eq_true_iff s).2 hidle)]; rfl)
  case h_7 =>
    by_cases hidle : s.pend = .none
    · rw [writeArg0_idle v hidle]
      exact .configure hidle rfl fun h => ⟨h, rfl, rfl⟩
    · exact .quiet (by rw [writeArg0, if_pos ((busy_eq_true_iff s).2 hidle)]; rfl)
  case h_8 => exact .quiet rfl
  case h_9 => exact .quiet rfl
  case h_10 => exact hostEffect_writeData s _ v
  case h_11 => exact .quiet rfl

/-- Everything a host access can do. -/
theorem hostEffect_hostAccess (s : State) (a : Access) : HostEffect s a (hostAccess s a) := by
  by_cases hd : a.defined = true
  · obtain ⟨off, width, kind⟩ := a
    have hw : width = .word := by simp_all [Access.defined]
    subst hw
    cases kind with
    | read =>
      have : hostAccess s { off := off, width := .word, kind := .read } =
          { (busRead s off.toNat).2 with rdata := (busRead s off.toNat).1 } := by rw [hostAccess, if_pos hd]
      rw [this]
      refine .quiet (onlyHostSide_rdata ?_ _)
      unfold busRead
      split
      · exact onlyHostSide_readData s
      · rfl
    | write v =>
      have : hostAccess s { off := off, width := .word, kind := .write v } = busWrite s off.toNat v := by
        rw [hostAccess, if_pos hd]
      rw [this]
      exact hostEffect_busWrite s off v
  · obtain h | h := hostAccess_undefined (s := s) (Bool.eq_false_iff.2 hd) <;> rw [h]
    · exact .quiet rfl
    · exact .quiet rfl

/-- The order of the write-1-to-clear bits does not matter (10_state.md R26). -/
theorem writeStatus_eq (s : State) (v : Word) :
    s.writeStatus v =
      { s with
        status :=
          { s.status with
            done := s.status.done && !v.getLsbD 1
            err := s.status.err && !v.getLsbD 2
            errm := s.status.errm && !v.getLsbD 2
            ovr := s.status.ovr && !v.getLsbD 4
            aerr := s.status.aerr && !v.getLsbD 5
            errcode := if v.getLsbD 2 then .none else s.status.errcode }
        errcmd := if v.getLsbD 2 then 0 else s.errcmd } := by
  unfold State.writeStatus
  cases v.getLsbD 1 <;> cases v.getLsbD 2 <;> cases v.getLsbD 4 <;> cases v.getLsbD 5 <;>
    simp [State.clearDone, State.clearFailure, State.clearOvr, State.clearAerr]

/-- Settles O21: a word write at STATUS is `State.writeStatus`. -/
theorem statusWriteClearsBits : Obligations.StatusWriteClearsBits := by
  intro s v
  rw [hostAccess_word_write s v (by decide)]
  exact writeStatus_eq s v

/-- A store through the data port writes storage, AERR and DIDX only. -/
theorem writeElement_frame (s : State) (v : Word) (el : PortElement) :
    writeElement s v el =
      { s with
        e := (writeElement s v el).e
        p := (writeElement s v el).p
        m := (writeElement s v el).m
        sup := (writeElement s v el).sup
        status := { s.status with aerr := (writeElement s v el).status.aerr } } := by
  cases el with
  | mdata | mrows | mcols =>
    simp only [writeElement]
    split <;> rfl
  | e | p | sup | pdeg => rfl

/-- Settles O16: of the effects of an access only the soft reset reaches a pending command's inputs; the others need an idle block. -/
theorem busyAccessesKeepCommandInputs : Obligations.BusyAccessesKeepCommandInputs := by
  intro s a hbusy hreset
  have heffect := hostEffect_hostAccess s a
  generalize hostAccess s a = u at heffect ⊢
  cases heffect with
  | quiet h =>
    rw [h]
    simp
  | softReset ha hv => exact absurd ⟨_, ha, hv⟩ hreset
  | statusWrite ha =>
    rw [writeStatus_eq]
    simp
  | issue v hidle => exact absurd hidle hbusy
  | configure hidle => exact absurd hidle hbusy
  | store v el hidle => exact absurd hidle hbusy

end Sys2Proof.Machine
end

section
/-! PROOFS. What the body of a command can do, said once for all 34 (40_system.md R112): it fails with a code of 60_exceptions.md R240
other than 0, or it writes its destinations and nothing else. -/

namespace Sys2Proof.Machine

/-! ## Outcomes of a body -/

/-- `x` answers a value with `Q`, or fails with a code other than 0. -/
def Ends {α : Type} (Q : α → Prop) (x : Except ErrCode α) : Prop := (∀ a, x = .ok a → Q a) ∧ x ≠ .error .none

theorem Ends.ok {α : Type} {Q : α → Prop} {a : α} (h : Q a) : Ends Q (.ok a) := by
  refine ⟨fun b hb => ?_, by simp⟩
  cases hb
  exact h

theorem Ends.error {α : Type} {Q : α → Prop} {k : ErrCode} (hk : k ≠ .none) : Ends Q (.error k) :=
  ⟨by simp, by simpa using hk⟩

theorem Ends.bind {α β : Type} {P : α → Prop} {Q : β → Prop} {x : Except ErrCode α} {f : α → Except ErrCode β}
    (hx : Ends P x) (hf : ∀ a, P a → Ends Q (f a)) : Ends Q (x >>= f) := by
  cases x with
  | ok a => exact hf a (hx.1 a rfl)
  | error k => exact Ends.error fun h => hx.2 (by rw [h])

theorem Ends.require {c : Bool} {k : ErrCode} (hk : k ≠ .none) : Ends (fun _ => c = true) (require c k) := by
  cases c
  · exact Ends.error hk
  · exact Ends.ok rfl

/-- A check, then the rest of the body with the check passed. -/
theorem Ends.check {α : Type} {Q : α → Prop} {c : Bool} {k : ErrCode} {f : Unit → Except ErrCode α} (hk : k ≠ .none)
    (hf : c = true → Ends Q (f ())) : Ends Q (Machine.require c k >>= f) :=
  (Ends.require hk).bind fun _ h => hf h

/-! ## Outcomes of the shared functions -/

/-- The conditions of `GoppaPre` (44_goppa.md R210) as the function checks them. -/
def GoppaChecked (s : State) (g : Poly) : Prop :=
  allInF s.field g = true ∧ allInF s.field s.support = true ∧ 1 ≤ deg g ∧ supportValid s g = true

theorem goppaPre_ends (s : State) (g : Poly) : Ends (fun _ => GoppaChecked s g) (goppaPre s g) := by
  unfold goppaPre
  refine .check (by decide) fun h1 => .check (by decide) fun h2 => .check (by decide) fun h3 => ?_
  exact ⟨fun _ h => ⟨h1, h2, by simpa using h3, require_eq_ok.1 h⟩, (Ends.require (by decide)).2⟩

theorem pinvmod_ends (F : Gf) (A G : Poly) : Ends (fun _ => True) (pinvmod F A G) := by
  unfold pinvmod
  split
  · exact .error (by decide)
  · split
    · exact .ok trivial
    · dsimp only
      split
      · exact .ok trivial
      · exact .error (by decide)

theorem psqrtmod_ends (F : Gf) (A G : Poly) : Ends (fun _ => True) (psqrtmod F A G) := by
  unfold psqrtmod
  split
  · exact .error (by decide)
  · split <;> exact .ok trivial

/-! The functions of the Goppa unit as sequences: a failure of a part is passed on. -/

theorem syndSum_cons (F : Gf) (g : Poly) (r α : Nat) (rest : List Nat) (j : Nat) :
    syndSum F g r (α :: rest) j = syndSum F g r rest (j + 1) >>= fun S =>
      if r.testBit j then pinvmod F (norm [α, 1]) g >>= fun u => .ok (padd u S) else .ok S := by
  rw [syndSum]
  cases syndSum F g r rest (j + 1) with
  | error k => rfl
  | ok S => cases pinvmod F (norm [α, 1]) g <;> rfl

theorem synd_eq (F : Gf) (g : Poly) (r : Nat) (sup : List Nat) :
    synd F g r sup = syndSum F g r sup 0 >>= fun S => .ok (pmod F S g) := by
  rw [synd]
  cases syndSum F g r sup 0 <;> rfl

theorem patTau_eq (F : Gf) (S g : Poly) :
    patTau F S g = pinvmod F S g >>= fun sinv => psqrtmod F (pmod F (padd sinv polyX) g) g := by
  rw [patTau]
  cases pinvmod F S g <;> rfl

theorem patterson_eq (F : Gf) (g : Poly) (r : Nat) (sup : List Nat) (zs : Bool) :
    patterson F g r sup zs = synd F g r sup >>= fun S =>
      if isZero S then if zs then .ok { c := r, σ := [1], count := 0 } else .error .zeroSyndrome
      else patTau F S g >>= fun τ =>
        if (countTrue (rootBits F (locator F τ g) sup) : Int) = deg (locator F τ g) then
          .ok { c := r ^^^ packBits (rootBits F (locator F τ g) sup), σ := locator F τ g,
                count := countTrue (rootBits F (locator F τ g) sup) }
        else .error .decodeFailure := by
  rw [patterson]
  cases synd F g r sup with
  | error k => rfl
  | ok S =>
    simp only [except_ok_bind]
    cases patTau F S g <;> rfl

theorem syndSum_ends (F : Gf) (g : Poly) (r : Nat) (sup : List Nat) (j : Nat) :
    Ends (fun _ => True) (syndSum F g r sup j) := by
  induction sup generalizing j with
  | nil => exact .ok trivial
  | cons α rest ih =>
    rw [syndSum_cons]
    refine (ih (j + 1)).bind fun S _ => ?_
    split
    · exact (pinvmod_ends F _ g).bind fun u _ => .ok trivial
    · exact .ok trivial

theorem synd_ends (F : Gf) (g : Poly) (r : Nat) (sup : List Nat) : Ends (fun _ => True) (synd F g r sup) := by
  rw [synd_eq]
  exact (syndSum_ends F g r sup 0).bind fun _ _ => .ok trivial

theorem patTau_ends (F : Gf) (S g : Poly) : Ends (fun _ => True) (patTau F S g) := by
  rw [patTau_eq]
  exact (pinvmod_ends F S g).bind fun _ _ => psqrtmod_ends F _ g

theorem patterson_ends (F : Gf) (g : Poly) (r : Nat) (sup : List Nat) (zs : Bool) :
    Ends (fun _ => True) (patterson F g r sup zs) := by
  rw [patterson_eq]
  refine (synd_ends F g r sup).bind fun S _ => ?_
  split
  · split
    · exact .ok trivial
    · exact .error (by decide)
  · refine (patTau_ends F S g).bind fun τ _ => ?_
    split
    · exact .ok trivial
    · exact .error (by decide)

/-! ## Elimination: the pivots -/

/-- The pivots found are new columns in the order visited, and the rank counts them (43_matrix.md R181). -/
theorem rrefLoop_piv (cs R : List Nat) (p : Nat) (piv : List Nat) :
    ∃ l, l.Sublist cs ∧ (rrefLoop cs R p piv).piv = piv ++ l ∧ (rrefLoop cs R p piv).rank = p + l.length := by
  induction cs generalizing R p piv with
  | nil => exact ⟨[], by simp [rrefLoop]⟩
  | cons c cs ih =>
    simp only [rrefLoop]
    split
    · exact ⟨[], by simp⟩
    · split
      · obtain ⟨l, hl, hp, hr⟩ := ih R p piv
        exact ⟨l, hl.cons c, hp, hr⟩
      · rename_i i0 _
        obtain ⟨l, hl, hp, hr⟩ := ih (eliminate (swapRows R p i0) p c) (p + 1) (piv ++ [c])
        refine ⟨c :: l, hl.cons_cons c, by simp [hp], ?_⟩
        rw [hr, List.length_cons]
        omega

theorem rref_piv_sublist (A : Mat) (n : Nat) : (rref A n).piv.Sublist (List.range n) := by
  obtain ⟨l, hl, hp, -⟩ := rrefLoop_piv (List.range n) A.row 0 []
  simpa [rref, hp] using hl

theorem rref_rank_eq (A : Mat) (n : Nat) : (rref A n).rank = (rref A n).piv.length := by
  obtain ⟨l, -, hp, hr⟩ := rrefLoop_piv (List.range n) A.row 0 []
  simp [rref, hp, hr]

/-- The columns that are no pivots, counted. -/
theorem freeCols_length {c : Nat} {piv : List Nat} (h : piv.Sublist (List.range c)) :
    (freeCols c piv).length = c - piv.length := by
  have hpiv : ((List.range c).filter fun j => piv.contains j).length = piv.length := by
    refine (List.Perm.length_eq ?_)
    refine (List.perm_ext_iff_of_nodup ((List.nodup_range).filter _) (List.nodup_range.sublist h)).2 fun j => ?_
    simp only [List.mem_filter, List.contains_iff_mem]
    exact ⟨And.right, fun hj => ⟨h.subset hj, hj⟩⟩
  have := List.length_eq_length_filter_add (l := List.range c) fun j => piv.contains j
  rw [hpiv, List.length_range] at this
  unfold freeCols
  omega

@[simp] theorem nullBasis_rows (A : Mat) (c : Nat) : (nullBasis c (rref A c)).rows = c - (rref A c).rank := by
  rw [rref_rank_eq, ← freeCols_length (rref_piv_sublist A c)]
  simp [nullBasis, Mat.rows]

/-! ## Storage after a write -/

theorem storageOk_setE {s : State} (h : s.StorageOk) (a : EReg) (v : Nat) : (s.setE a v).StorageOk := by
  obtain ⟨he, hp, hm, hsup⟩ := h
  refine ⟨fun i => ?_, hp, hm, hsup⟩
  simp only [State.setE_e, State.setE_caps, Fin.getElem_fin, Vector.getElem_set]
  split
  · exact element_lt _ _
  · exact he i

/-- A polynomial register written with a polynomial of the build. -/
theorem storageOk_p {s : State} (h : s.StorageOk) (a : PReg) {q : Poly} (hq : PolyOk s.caps q) :
    ({ s with p := s.p.set a q } : State).StorageOk := by
  obtain ⟨he, hp, hm, hsup⟩ := h
  refine ⟨he, fun i => ?_, hm, hsup⟩
  simp only [Fin.getElem_fin, Vector.getElem_set]
  split
  · exact hq
  · exact hp i

theorem storageOk_setP {s : State} (h : s.StorageOk) (a : PReg) (q : Poly) : (s.setP a q).StorageOk :=
  storageOk_p h a (storedPoly_ok s.caps q)

/-- A matrix register written with a matrix of the build. -/
theorem storageOk_putM {s : State} (h : s.StorageOk) (a : MReg) {A : Mat} (hA : MatOk s.caps A) :
    (s.putM a A).StorageOk := by
  obtain ⟨he, hp, hm, hsup⟩ := h
  refine ⟨he, hp, fun i => ?_, hsup⟩
  simp only [State.putM_m, State.putM_caps, Fin.getElem_fin, Vector.getElem_set]
  split
  · exact hA
  · exact hm i

/-- The dimensions a matrix register of the build can hold. -/
def FitsM (b : Build) (A : Mat) : Prop := A.rows ≤ b.rmax ∧ A.rows < 2 ^ 32 ∧ A.cols ≤ b.cmax

theorem storageOk_setM {s : State} (h : s.StorageOk) (a : MReg) {A : Mat} (hA : FitsM s.caps A) :
    (s.setM a A).StorageOk :=
  storageOk_putM h a (Mat.masked_ok hA.1 hA.2.1 hA.2.2)

/-! ## What a successful body writes -/

/-- `u` is `s` after writes of destinations of `i` only, with storage that is still well formed if `s` meets the invariant. -/
structure Writes (i : Instr) (s u : State) : Prop where
  rest : u = { s with
    e := u.e
    p := u.p
    m := u.m
    sup := u.sup
    resCount := u.resCount
    resRank := u.resRank
    resFlag := u.resFlag
    status := { s.status with cfgValid := u.status.cfgValid } }
  e : ∀ r : EReg, r ∉ eDest i → u.e[r] = s.e[r]
  p : ∀ r : PReg, r ∉ pDest i → u.p[r] = s.p[r]
  m : ∀ r : MReg, r ∉ mDest i → u.m[r] = s.m[r]
  sup : i ≠ .supinit → u.sup = s.sup
  resCount : writesCount i = false → u.resCount = s.resCount
  resRank : writesRank i = false → u.resRank = s.resRank
  resFlag : writesFlag i = false → u.resFlag = s.resFlag
  cfgValid : u.status.cfgValid = s.status.cfgValid ∨
    i = .config ∧ fieldOk s.caps.mmax s.cfgM.toNat s.cfgFmod.toNat = true
  storage : s.Inv → u.StorageOk

theorem Writes.refl (i : Instr) (s : State) : Writes i s s where
  rest := rfl
  e _ _ := rfl
  p _ _ := rfl
  m _ _ := rfl
  sup _ := rfl
  resCount _ := rfl
  resRank _ := rfl
  resFlag _ := rfl
  cfgValid := .inl rfl
  storage h := h.2.1

theorem Writes.caps {i : Instr} {s u : State} (h : Writes i s u) : u.caps = s.caps := by rw [h.rest]

theorem Writes.setE {i : Instr} {s u : State} (h : Writes i s u) {a : EReg} (ha : a ∈ eDest i) (v : Nat) :
    Writes i s (u.setE a v) where
  rest := by
    conv_lhs => rw [h.rest]
    rw [State.setE, State.setE, h.caps]
  e r hr := by
    rw [← h.e r hr]
    simp only [State.setE_e, Fin.getElem_fin, Vector.getElem_set]
    exact if_neg fun hEq => hr ((Fin.ext hEq : a = r) ▸ ha)
  p := h.p
  m := h.m
  sup := h.sup
  resCount := h.resCount
  resRank := h.resRank
  resFlag := h.resFlag
  cfgValid := h.cfgValid
  storage hs := storageOk_setE (h.storage hs) a v

theorem Writes.setP {i : Instr} {s u : State} (h : Writes i s u) {a : PReg} (ha : a ∈ pDest i) (q : Poly) :
    Writes i s (u.setP a q) where
  rest := by
    conv_lhs => rw [h.rest]
    rw [State.setP, State.setP, h.caps]
  e := h.e
  p r hr := by
    rw [← h.p r hr]
    simp only [State.setP_p, Fin.getElem_fin, Vector.getElem_set]
    exact if_neg fun hEq => hr ((Fin.ext hEq : a = r) ▸ ha)
  m := h.m
  sup := h.sup
  resCount := h.resCount
  resRank := h.resRank
  resFlag := h.resFlag
  cfgValid := h.cfgValid
  storage hs := storageOk_setP (h.storage hs) a q

theorem Writes.setM {i : Instr} {s u : State} (h : Writes i s u) {a : MReg} (ha : a ∈ mDest i) {A : Mat}
    (hA : s.Inv → FitsM s.caps A) : Writes i s (u.setM a A) where
  rest := by
    conv_lhs => rw [h.rest]
    rw [State.setM, State.setM]
  e := h.e
  p := h.p
  m r hr := by
    rw [← h.m r hr]
    simp only [State.setM_m, Fin.getElem_fin, Vector.getElem_set]
    exact if_neg fun hEq => hr ((Fin.ext hEq : a = r) ▸ ha)
  sup := h.sup
  resCount := h.resCount
  resRank := h.resRank
  resFlag := h.resFlag
  cfgValid := h.cfgValid
  storage hs := storageOk_setM (h.storage hs) a (h.caps ▸ hA hs)

theorem Writes.setCount {i : Instr} {s u : State} (h : Writes i s u) (hi : writesCount i = true) (n : Nat) :
    Writes i s (u.setCount n) :=
  { h with
    rest := by
      conv_lhs => rw [h.rest]
      rw [State.setCount, State.setCount]
    resCount := by simp [hi] }

theorem Writes.setRank {i : Instr} {s u : State} (h : Writes i s u) (hi : writesRank i = true) (n : Nat) :
    Writes i s (u.setRank n) :=
  { h with
    rest := by
      conv_lhs => rw [h.rest]
      rw [State.setRank, State.setRank]
    resRank := by simp [hi] }

theorem Writes.setFlag {i : Instr} {s u : State} (h : Writes i s u) (hi : writesFlag i = true) (b : Bool) :
    Writes i s (u.setFlag b) :=
  { h with
    rest := by
      conv_lhs => rw [h.rest]
      rw [State.setFlag, State.setFlag]
    resFlag := by simp [hi] }

end Sys2Proof.Machine
end

section
/-! PROOFS. The body of each command, and what holds of every completion (40_system.md R112, 60_exceptions.md R241, R242). -/

namespace Sys2Proof.Machine

/-! ## The bodies that write other than by `setE`, `setP` and `setM` -/

theorem checkN_iff (s : State) : checkN s = true ↔ s.LengthOk := by
  simp only [checkN, Bool.and_eq_true, decide_eq_true_eq, and_assoc]
  rfl

theorem writes_moveE (s : State) (a b : EReg) : Writes (.emov a b) s (s.moveE a b) :=
  { Writes.refl (.emov a b) s with
    rest := rfl
    e := fun r hr => by
      have : a ≠ r := fun h => hr (by simp [eDest, h])
      simp only [State.moveE, Fin.getElem_fin, Vector.getElem_set]
      exact if_neg fun h => this (Fin.ext h)
    storage := fun hs => by
      obtain ⟨he, hrest⟩ := hs.2.1
      refine ⟨fun i => ?_, hrest⟩
      simp only [State.moveE, Fin.getElem_fin, Vector.getElem_set]
      split
      · exact he b
      · exact he i }

theorem writes_moveP (s : State) (a b : PReg) : Writes (.pmov a b) s (s.moveP a b) :=
  { Writes.refl (.pmov a b) s with
    rest := rfl
    p := fun r hr => by
      have : a ≠ r := fun h => hr (by simp [pDest, h])
      simp only [State.moveP, Fin.getElem_fin, Vector.getElem_set]
      exact if_neg fun h => this (Fin.ext h)
    storage := fun hs => storageOk_p hs.2.1 a (hs.2.1.2.1 b) }

theorem writes_moveM (s : State) (a b : MReg) : Writes (.mmov a b) s (s.moveM a b) :=
  { Writes.refl (.mmov a b) s with
    rest := rfl
    m := fun r hr => by
      have : a ≠ r := fun h => hr (by simp [mDest, h])
      simp only [State.moveM, Fin.getElem_fin, Vector.getElem_set]
      exact if_neg fun h => this (Fin.ext h)
    storage := fun hs => storageOk_putM hs.2.1 a (hs.2.1.2.2.1 b) }

theorem writes_setCfgValid {s : State} (h : fieldOk s.caps.mmax s.cfgM.toNat s.cfgFmod.toNat = true) :
    Writes .config s (s.setCfgValid true) :=
  { Writes.refl .config s with
    rest := rfl
    cfgValid := .inr ⟨rfl, h⟩ }

theorem supOk_setSupFirst {s : State} (hs : SupOk s.caps s.sup) (vs : List Nat) (hlen : vs.length ≤ s.caps.nmax) :
    SupOk s.caps (s.setSupFirst vs).sup := by
  obtain ⟨-, hsup, hlt⟩ := hs
  refine ⟨norm_wf _, ?_, fun v hv => ?_⟩
  · refine (norm_length_le _).trans ?_
    simp only [List.length_append, List.length_map, List.length_drop]
    omega
  · rcases List.mem_append.1 (mem_of_mem_norm hv) with hv | hv
    · obtain ⟨x, -, rfl⟩ := List.mem_map.1 hv
      exact element_lt _ x
    · exact hlt v (List.mem_of_mem_drop hv)

theorem writes_setSupFirst {s : State} (vs : List Nat) (hlen : vs.length ≤ s.caps.nmax) :
    Writes .supinit s (s.setSupFirst vs) :=
  { Writes.refl .supinit s with
    rest := rfl
    sup := by simp
    storage := fun hs => by
      obtain ⟨he, hp, hm, hsup⟩ := hs.2.1
      exact ⟨he, hp, hm, supOk_setSupFirst hsup vs hlen⟩ }

/-! ## The dimensions of the matrices written -/

theorem inv_matOk {s : State} (h : s.Inv) (i : MReg) : MatOk s.caps s.m[i] := h.2.1.2.2.1 i

theorem inv_polyOk {s : State} (h : s.Inv) (i : PReg) : PolyOk s.caps s.p[i] := h.2.1.2.1 i

/-- A vector as long as the code fits. -/
theorem fitsM_codeLength {s : State} (h : s.Inv) (hN : s.LengthOk) (A : Mat) (hrows : A.rows = 1)
    (hcols : A.cols = s.cfgN.toNat) : FitsM s.caps A := by
  obtain ⟨⟨-, -, ⟨-, -, hnc⟩, ⟨hr, -⟩, -⟩, -⟩ := h
  obtain ⟨-, hn, -⟩ := hN
  rw [FitsM, hrows, hcols]
  omega

theorem fitsM_rows_cols {b : Build} {A B C : Mat} (hB : MatOk b B) (hC : MatOk b C) (hr : A.rows = B.rows)
    (hc : A.cols = C.cols) : FitsM b A :=
  ⟨hr ▸ hB.1, hr ▸ hB.2.1, hc ▸ hC.2.2.1⟩

theorem cmax_lt {s : State} (h : s.Inv) : s.caps.cmax < 2 ^ 32 := h.1.2.2.2.2.2.1

@[simp] theorem pcheckmat_cols (F : Gf) (g : Poly) (sup : List Nat) : (pcheckmat F g sup).cols = sup.length := rfl

@[simp] theorem pcheckmat_rows (F : Gf) (g : Poly) (sup : List Nat) :
    (pcheckmat F g sup).rows = (deg g).toNat * F.m := by
  simp [pcheckmat, Mat.rows, List.length_flatMap]

@[simp] theorem support_length (s : State) : s.support.length = s.cfgN.toNat := Memory.firstEntries_length _ _

@[simp] theorem rootBits_length (F : Gf) (A : Poly) (sup : List Nat) : (rootBits F A sup).length = sup.length := by
  simp [rootBits]

@[simp] theorem solve_rows (G : Mat) (c : Nat) : (solve G c).1.rows = 1 := rfl

@[simp] theorem solve_cols (G : Mat) (c : Nat) : (solve G c).1.cols = G.rows := by simp [solve]

theorem fitsM_pcheckmat {s : State} (h : s.Inv) (hN : s.LengthOk) (b : PReg)
    (hcap : (deg s.p[b]).toNat * s.field.m ≤ s.caps.rmax) : FitsM s.caps (pcheckmat s.field s.p[b] s.support) := by
  obtain ⟨-, hlen, -⟩ := inv_polyOk h b
  obtain ⟨⟨-, ⟨-, hpcap⟩, ⟨-, -, hnc⟩, -⟩, -⟩ := h
  obtain ⟨-, hn, -⟩ := hN
  have hdeg : (deg s.p[b]).toNat ≤ 65535 := by
    have := norm_length_le s.p[b]
    simp only [deg]
    omega
  have hm : s.field.m < 32 := s.cfgM.isLt
  have : (deg s.p[b]).toNat * s.field.m ≤ 65535 * 32 := Nat.mul_le_mul hdeg hm.le
  rw [FitsM, pcheckmat_rows, pcheckmat_cols, support_length]
  omega

/-! ## Every body -/

/-- What each command's body does. -/
theorem exec_body (i : Instr) (s : State) :
    ∃ body, exec i s = complete i s body ∧ Ends (Writes i s) body := by
  have hw := Writes.refl i s
  cases i with
  | nop => exact ⟨_, rfl, .ok hw⟩
  | config => exact ⟨_, rfl, .check (by decide) fun h => .ok (writes_setCfgValid h)⟩
  | supinit =>
    refine ⟨_, rfl, .check (by decide) fun h => .ok (writes_setSupFirst _ ?_)⟩
    rw [List.length_range]
    exact ((checkN_iff s).1 h).2.1
  | emov a b => exact ⟨_, rfl, .ok (writes_moveE s a b)⟩
  | pmov a b => exact ⟨_, rfl, .ok (writes_moveP s a b)⟩
  | mmov a b => exact ⟨_, rfl, .ok (writes_moveM s a b)⟩
  | fadd a b c | fmul a b c =>
    exact ⟨_, rfl, .check (by decide) fun _ => .ok (hw.setE (by simp [eDest]) _)⟩
  | finv a b =>
    exact ⟨_, rfl, .check (by decide) fun _ => .check (by decide) fun _ => .ok (hw.setE (by simp [eDest]) _)⟩
  | fpow a b c => exact ⟨_, rfl, .check (by decide) fun _ => .ok (hw.setE (by simp [eDest]) _)⟩
  | fsqrt a b => exact ⟨_, rfl, .check (by decide) fun _ => .ok (hw.setE (by simp [eDest]) _)⟩
  | padd a b c => exact ⟨_, rfl, .check (by decide) fun _ => .ok (hw.setP (by simp [pDest]) _)⟩
  | pmul a b c =>
    exact ⟨_, rfl, .check (by decide) fun _ => .check (by decide) fun _ => .ok (hw.setP (by simp [pDest]) _)⟩
  | pdivmod a b c d =>
    exact ⟨_, rfl, .check (by decide) fun _ => .check (by decide) fun _ =>
      .ok ((hw.setP (by simp [pDest]) _).setP (by simp [pDest]) _)⟩
  | pmod a b c =>
    exact ⟨_, rfl, .check (by decide) fun _ => .check (by decide) fun _ => .ok (hw.setP (by simp [pDest]) _)⟩
  | pinvmod a b c =>
    exact ⟨_, rfl, .check (by decide) fun _ => (pinvmod_ends ..).bind fun _ _ => .ok (hw.setP (by simp [pDest]) _)⟩
  | psplit a b c =>
    exact ⟨_, rfl, .check (by decide) fun _ => .ok ((hw.setP (by simp [pDest]) _).setP (by simp [pDest]) _)⟩
  | psqrtmod a b c =>
    exact ⟨_, rfl, .check (by decide) fun _ => (psqrtmod_ends ..).bind fun _ _ => .ok (hw.setP (by simp [pDest]) _)⟩
  | peval a b c =>
    exact ⟨_, rfl, .check (by decide) fun _ => .check (by decide) fun _ => .ok (hw.setE (by simp [eDest]) _)⟩
  | proots a b =>
    refine ⟨_, rfl, .check (by decide) fun hN => .check (by decide) fun _ => .check (by decide) fun _ =>
      .ok ((hw.setM (by simp [mDest]) fun hs => ?_).setCount rfl _)⟩
    exact fitsM_codeLength hs ((checkN_iff s).1 hN) _ rfl (by simp)
  | pirred a => exact ⟨_, rfl, .check (by decide) fun _ => .ok (hw.setFlag rfl _)⟩
  | mmul a b c =>
    refine ⟨_, rfl, .check (by decide) fun _ => .ok (hw.setM (by simp [mDest]) fun hs => ?_)⟩
    exact fitsM_rows_cols (inv_matOk hs b) (inv_matOk hs c) (matMul_rows _ _) rfl
  | madd a b c =>
    refine ⟨_, rfl, .check (by decide) fun h => .ok (hw.setM (by simp [mDest]) fun hs => ?_)⟩
    simp only [Bool.and_eq_true, beq_iff_eq] at h
    exact fitsM_rows_cols (inv_matOk hs b) (inv_matOk hs b) (by rw [matAdd_rows, h.1, min_self]) rfl
  | mtrans a b =>
    refine ⟨_, rfl, .check (by decide) fun h => .ok (hw.setM (by simp [mDest]) fun hs => ?_)⟩
    simp only [Bool.and_eq_true, decide_eq_true_eq] at h
    have := (inv_matOk hs b).2.2.1
    have := cmax_lt hs
    rw [FitsM, matTrans_rows, matTrans_cols]
    omega
  | mhcat a b c =>
    refine ⟨_, rfl, .check (by decide) fun h1 => .check (by decide) fun h2 =>
      .ok (hw.setM (by simp [mDest]) fun hs => ?_)⟩
    simp only [beq_iff_eq, decide_eq_true_eq] at h1 h2
    obtain ⟨hr, hr32, -⟩ := inv_matOk hs b
    rw [FitsM, matHcat_rows, matHcat_cols]
    omega
  | mrowred a b =>
    refine ⟨_, rfl, .check (by decide) fun _ => .ok ((hw.setM (by simp [mDest]) fun hs => ?_).setRank rfl _)⟩
    exact fitsM_rows_cols (inv_matOk hs b) (inv_matOk hs b) (rref_length _ _) rfl
  | mnull a b =>
    refine ⟨_, rfl, .check (by decide) fun h => .ok ((hw.setM (by simp [mDest]) fun hs => ?_).setRank rfl _)⟩
    simp only [decide_eq_true_eq] at h
    have hc := (inv_matOk hs b).2.2.1
    have := cmax_lt hs
    rw [FitsM, nullBasis_rows]
    exact ⟨h, by omega, hc⟩
  | minv a b =>
    refine ⟨_, rfl, .check (by decide) fun h => .check (by decide) fun _ =>
      .ok (hw.setM (by simp [mDest]) fun hs => ?_)⟩
    simp only [beq_iff_eq] at h
    exact fitsM_rows_cols (inv_matOk hs b) (inv_matOk hs b) (by simp) h
  | mdet a => exact ⟨_, rfl, .check (by decide) fun _ => .ok (hw.setFlag rfl _)⟩
  | pcheck a b =>
    refine ⟨_, rfl, .check (by decide) fun hN => (goppaPre_ends ..).bind fun _ _ => .check (by decide) fun hcap =>
      .ok (hw.setM (by simp [mDest]) fun hs => ?_)⟩
    exact fitsM_pcheckmat hs ((checkN_iff s).1 hN) b (by simpa using hcap)
  | synd a b c =>
    exact ⟨_, rfl, .check (by decide) fun _ => .check (by decide) fun _ => (goppaPre_ends ..).bind fun _ _ =>
      (synd_ends ..).bind fun _ _ => .ok (hw.setP (by simp [pDest]) _)⟩
  | latred a b c d =>
    exact ⟨_, rfl, .check (by decide) fun _ => .check (by decide) fun _ => .check (by decide) fun _ =>
      .ok ((hw.setP (by simp [pDest]) _).setP (by simp [pDest]) _)⟩
  | patterson a b c d =>
    refine ⟨_, rfl, .check (by decide) fun hN => .check (by decide) fun _ => (goppaPre_ends ..).bind fun _ _ =>
      (patterson_ends ..).bind fun _ _ =>
        .ok (((hw.setM (by simp [mDest]) fun hs => ?_).setP (by simp [pDest]) _).setCount rfl _)⟩
    exact fitsM_codeLength hs ((checkN_iff s).1 hN) _ rfl rfl
  | decode a b c d e =>
    refine ⟨_, rfl, .check (by decide) fun hN => .check (by decide) fun _ => .check (by decide) fun _ =>
      .check (by decide) fun hcap => (goppaPre_ends ..).bind fun _ _ => (patterson_ends ..).bind fun _ _ =>
        .ok ((((hw.setM (by simp [mDest]) fun hs => ?_).setM (by simp [mDest]) fun hs => ?_).setCount rfl _).setRank rfl _)⟩
    · have := hs.1.2.2.2.1.1
      rw [FitsM, solve_rows, solve_cols]
      exact ⟨this, by decide, by simpa using hcap⟩
    · exact fitsM_codeLength hs ((checkN_iff s).1 hN) _ rfl rfl

/-- Everything a completion can be: the writes of its destinations, or one failure. -/
theorem exec_cases (i : Instr) (s : State) :
    (∃ u, exec i s = .next u.finish ∧ Writes i s u) ∨
    (∃ k, k ≠ .none ∧ exec i s = .next (failureRecord s k (encode i))) := by
  obtain ⟨body, hexec, hbody, hne⟩ := exec_body i s
  rw [hexec]
  cases h : commandOutcome i s body with
  | ok u =>
    left
    refine ⟨u, by rw [complete, h], ?_⟩
    simp only [commandOutcome, bind_eq_ok] at h
    obtain ⟨-, -, -, -, hu⟩ := h
    exact hbody u hu
  | error k =>
    right
    refine ⟨k, ?_, by simp only [complete, h, fail_eq_failureRecord]⟩
    rintro rfl
    have hends : Ends (fun _ => True) (commandOutcome i s body) :=
      .check (by decide) fun _ => .check (by decide) fun _ => ⟨fun _ _ => trivial, hne⟩
    exact hends.2 h

/-- Settles O7: a success leaves the error record, a failure writes `failureRecord`; both are idle with DONE. -/
theorem everyCommandCompletesPrecisely : Obligations.EveryCommandCompletesPrecisely := by
  intro i s
  obtain ⟨u, h, hw⟩ | ⟨k, hk, h⟩ := exec_cases i s
  · refine ⟨_, h, rfl, rfl, .inl ?_⟩
    rw [hw.rest]
    exact ⟨rfl, rfl, rfl, rfl⟩
  · exact ⟨_, h, rfl, rfl, .inr ⟨k, hk, rfl⟩⟩

/-- Settles O8: the frame of a success is `Writes`; a failure writes the error record alone. -/
theorem commandsWriteOnlyTheirDestinations : Obligations.CommandsWriteOnlyTheirDestinations := by
  intro i s t ht
  obtain ⟨u, h, hw⟩ | ⟨k, -, h⟩ := exec_cases i s
  · obtain rfl : u.finish = t := by simpa [h] using ht
    refine ⟨hw.e, hw.p, hw.m, hw.sup, hw.resCount, hw.resRank, hw.resFlag, fun hi => ?_, ?_⟩
    · exact hw.cfgValid.resolve_right fun hc => hi hc.1
    · rw [hw.rest]
      simp [State.finish]
  · obtain rfl : failureRecord s k (encode i) = t := by simpa [h] using ht
    simp [failureRecord]

/-- Settles O9: both checks of `commandOutcome` come before the body. -/
theorem checksBeforeThePseudocode : Obligations.ChecksBeforeThePseudocode := by
  have illFormed {i : Instr} (s : State) (hi : i.wellFormed = false) : FailsWith i s .illegalField := by
    obtain ⟨body, hexec, -⟩ := exec_body i s
    rw [FailsWith, hexec, complete_illFormed hi, fail_eq_failureRecord]
  constructor
  · intro i s hf hi hc
    obtain ⟨body, hexec, -⟩ := exec_body i s
    rw [FailsWith, hexec, complete_notConfigured hi hf hc, fail_eq_failureRecord]
  · intro s a c d m b k
    refine ⟨illFormed s ?_, illFormed s ?_, illFormed s ?_, illFormed s ?_⟩ <;> simp [Instr.wellFormed]

end Sys2Proof.Machine
end

section
/-! PROOFS. The engine's move and the step (40_system.md R110-R112): illegal words, the error record, the invariant, progress. -/

namespace Sys2Proof.Machine

/-! ## The engine's move -/

theorem engineMove_run {s : State} {w : Word} {zs : Bool} (h : s.pend = .run w zs) : engineMove s = runWord w s := by
  simp [engineMove, h]

theorem engineMove_init {s : State} (h : s.pend = .init) : engineMove s = .next { s with pend := .none } := by
  simp [engineMove, h]

theorem runWord_ok {w : Word} {i : Instr} (s : State) (h : decodeWord w = .ok i) : runWord w s = exec i s := by
  simp [runWord, h]

theorem runWord_error {w : Word} {e : DecodeError} (s : State) (h : decodeWord w = .error e) :
    runWord w s = .next (failureRecord s (decodeErrCode e) w) := by
  simp [runWord, h, fail_eq_failureRecord]

theorem exec_illFormed {i : Instr} (s : State) (hi : i.wellFormed = false) : FailsWith i s .illegalField := by
  obtain ⟨body, hexec, -⟩ := exec_body i s
  rw [FailsWith, hexec, complete_illFormed hi, fail_eq_failureRecord]

theorem decodeWord_no_opcode {w : Word} (h : Opcode.ofByte (wordOp w) = none) : decodeWord w = .error .illegalOpcode := by
  simp [decodeWord, h]

/-- A word whose byte is an opcode decodes, or is refused for its fields. -/
theorem decodeWord_opcode {w : Word} {o : Opcode} (h : Opcode.ofByte (wordOp w) = some o) :
    decodeWord w = .ok (o.instr w) ∨ decodeWord w = .error .illegalField := by
  cases hl : o.legalFields w <;> simp [decodeWord, h, hl]

/-- Settles O5: a word without an opcode is refused; one with an opcode is refused, or decodes to an ill-formed command by O2. -/
theorem illegalWordsFail : Obligations.IllegalWordsFail := by
  intro s w zs hpend hillegal
  rw [engineMove_run hpend]
  constructor
  · intro hno
    exact runWord_error s (decodeWord_no_opcode ((ofByte_eq_none_iff _).2 hno))
  · rintro ⟨o, ho⟩
    have hop : Opcode.ofByte (wordOp w) = some o := by rw [wordOp, ← ho, ofByte_byte]
    obtain hdec | hdec := decodeWord_opcode hop
    · have hword := decodedWordsReencode w _ hdec
      have hi : (o.instr w).wellFormed = false := Bool.eq_false_iff.2 fun hwf => hillegal ⟨_, hwf, hword⟩
      rw [runWord_ok s hdec, exec_illFormed s hi, hword]
    · exact runWord_error s hdec

/-! ## The step, event by event -/

theorem step_no_event {s : State} (h : s.inbox = []) : step s = engineMove s := by
  rw [step_eq, h]

theorem step_engineTurn {s : State} {rest : List HostEvent} (h : s.inbox = .engineTurn :: rest) :
    step s = engineMove { s with inbox := rest } := by
  rw [step_eq, h]

theorem step_access {s : State} {a : Access} {rest : List HostEvent} (h : s.inbox = .access a :: rest) :
    step s = .next (hostAccess { s with inbox := rest } a) := by
  rw [step_eq, h]

theorem step_resetInput {s : State} {rest : List HostEvent} (h : s.inbox = .resetInput :: rest) :
    step s = .next (State.resetBlock { s with inbox := rest }) := by
  rw [step_eq, h]

/-- The word that `decodeTableWord` reads is the 32-bit word itself. -/
theorem decodeWord_of_tableWord {w : Nat} {i : Instr} (h : decodeTableWord 32 w = some i) :
    decodeWord (tableWord 32 w) = .ok i := by
  simp only [decodeTableWord, List.range, List.range.loop, List.map, decodeBytes, wordOfLanes_lanes] at h
  cases hd : decodeWord (tableWord 32 w) with
  | ok j => simpa [hd] using h
  | error e => simp [hd] at h

/-- Settles O6: `step_no_event` and `step_engineTurn` give the engine's move, which runs the decoded word. -/
theorem stepRunsDecodedCommand : Obligations.StepRunsDecodedCommand := by
  constructor
  · intro s w zs i hpend hdec
    constructor
    · intro hin
      rw [step_no_event hin, engineMove_run hpend, runWord_ok s hdec]
    · intro rest hin
      rw [step_engineTurn hin, engineMove_run (s := { s with inbox := rest }) hpend, runWord_ok _ hdec]
  · intro s w i hdec
    rw [step_engineTurn (rest := s.inbox) rfl, engineMove_run (w := tableWord 32 w) rfl,
      runWord_ok _ (decodeWord_of_tableWord hdec)]
    rfl

/-- Settles O31: both ways the engine moves lead to `engineMove_init`. -/
theorem initialisationEnds : Obligations.InitialisationEnds := by
  intro s hinit
  constructor
  · intro hin
    rw [step_no_event hin, engineMove_init hinit]
  · intro rest hin
    rw [step_engineTurn hin, engineMove_init (s := { s with inbox := rest }) hinit]

/-- Everything the engine's move can be, with what it writes. -/
theorem engineMove_effect (s : State) :
    (engineMove s = .next s ∧ s.pend = .none) ∨
    (engineMove s = .next { s with pend := .none }) ∨
    (∃ w zs i u, s.pend = .run w zs ∧ decodeWord w = .ok i ∧ Writes i s u ∧ engineMove s = .next u.finish) ∨
    (∃ w zs k, s.pend = .run w zs ∧ k ≠ .none ∧ engineMove s = .next (failureRecord s k w)) := by
  obtain ⟨hp, h⟩ | ⟨-, h⟩ | ⟨w, zs, hp, h⟩ := engineMove_cases s
  · exact .inl ⟨h, hp⟩
  · exact .inr (.inl h)
  · rw [h]
    cases hdec : decodeWord w with
    | ok i =>
      rw [runWord_ok s hdec]
      obtain ⟨u, hu, hw⟩ | ⟨k, hk, hu⟩ := exec_cases i s
      · exact .inr (.inr (.inl ⟨w, zs, i, u, hp, hdec, hw, hu⟩))
      · rw [decodedWordsReencode w i hdec] at hu
        exact .inr (.inr (.inr ⟨w, zs, k, hp, hk, hu⟩))
    | error e =>
      refine .inr (.inr (.inr ⟨w, zs, _, hp, ?_, runWord_error s hdec⟩))
      cases e <;> decide

/-! ## The error record -/

/-- The record of `s` is still in `t`. -/
def KeepsError (s t : State) : Prop :=
  t.status.err = true ∧ t.status.errcode = s.status.errcode ∧ t.errcmd = s.errcmd ∧
    (s.status.errm = true → t.status.errm = true)

/-- The engine clears no record: the first failure is kept (60_exceptions.md R242). -/
theorem engineMove_keepsError {s t : State} (h : engineMove s = .next t) (herr : s.status.err = true) :
    KeepsError s t := by
  obtain ⟨h', -⟩ | h' | ⟨w, zs, i, u, -, -, hw, h'⟩ | ⟨w, zs, k, -, -, h'⟩ := engineMove_effect s <;>
    rw [h'] at h <;> cases h
  · exact ⟨herr, rfl, rfl, id⟩
  · exact ⟨herr, rfl, rfl, id⟩
  · rw [hw.rest]
    exact ⟨herr, rfl, rfl, id⟩
  · simp +contextual [KeepsError, failureRecord, herr]

/-- A store through the data port keeps the record. -/
theorem writeElement_keepsError {s : State} (v : Word) (el : PortElement) (herr : s.status.err = true) :
    KeepsError s (writeElement s v el).autoInc := by
  rw [autoInc_eq, writeElement_frame]
  exact ⟨herr, rfl, rfl, id⟩

/-- An access that is neither a soft reset nor a STATUS write with bit 2 keeps the record. -/
theorem hostAccess_keepsError {s : State} {a : Access} (herr : s.status.err = true) :
    KeepsError s (hostAccess s a) ∨
    (∃ v, a = { off := 0x14, width := .word, kind := .write v } ∧ v.getLsbD 0 = true) ∨
    (∃ v, a = { off := 0x18, width := .word, kind := .write v } ∧ v.getLsbD 2 = true) := by
  have heffect := hostEffect_hostAccess s a
  generalize hostAccess s a = u at heffect ⊢
  cases heffect with
  | quiet h =>
    left
    rw [h]
    exact ⟨herr, rfl, rfl, id⟩
  | softReset ha hv => exact .inr (.inl ⟨_, ha, hv⟩)
  | @statusWrite v ha =>
    cases hv : v.getLsbD 2 with
    | true => exact .inr (.inr ⟨v, ha, hv⟩)
    | false =>
      left
      simp only [writeStatus_eq, hv]
      simp [KeepsError, herr]
  | issue v => exact .inl ⟨herr, rfl, rfl, id⟩
  | configure hidle h =>
    left
    rw [h]
    exact ⟨herr, rfl, rfl, id⟩
  | store v el => exact .inl (writeElement_keepsError v el herr)

/-- Settles O10: the engine keeps the record, and the accesses that do not are the two of the statement. -/
theorem errorRecordIsSticky : Obligations.ErrorRecordIsSticky := by
  intro s t ht herr
  match hin : s.inbox with
  | [] =>
    rw [step_no_event hin] at ht
    exact .inl (engineMove_keepsError ht herr)
  | .engineTurn :: rest =>
    rw [step_engineTurn hin] at ht
    exact .inl (engineMove_keepsError (s := { s with inbox := rest }) ht herr)
  | .resetInput :: rest => exact .inr (.inl ⟨rest, rfl⟩)
  | .access a :: rest =>
    rw [step_access hin] at ht
    cases ht
    obtain h | ⟨v, rfl, hv⟩ | ⟨v, rfl, hv⟩ := hostAccess_keepsError (s := { s with inbox := rest }) (a := a) herr
    · exact .inl h
    · exact .inr (.inr (.inl ⟨v, rest, rfl, hv⟩))
    · exact .inr (.inr (.inr ⟨v, rest, rfl, hv⟩))

/-! ## The active field -/

/-- The engine sets CFG_VALID only by CONFIG (10_state.md R30). -/
theorem engineMove_sets_cfgValid {s t : State} (h : engineMove s = .next t) (h0 : s.status.cfgValid = false)
    (h1 : t.status.cfgValid = true) :
    ∃ w zs, s.pend = .run w zs ∧ decodeWord w = .ok .config ∧
      fieldOk s.caps.mmax s.cfgM.toNat s.cfgFmod.toNat = true := by
  obtain ⟨h', -⟩ | h' | ⟨w, zs, i, u, hp, hdec, hw, h'⟩ | ⟨w, zs, k, -, -, h'⟩ := engineMove_effect s <;>
    rw [h'] at h <;> cases h
  · simp [h0] at h1
  · simp [h0] at h1
  · obtain hc | ⟨rfl, hf⟩ := hw.cfgValid
    · simp [State.finish, hc, h0] at h1
    · exact ⟨w, zs, hp, hdec, hf⟩
  · simp [failureRecord, h0] at h1

/-- No host access sets CFG_VALID. -/
theorem hostAccess_cfgValid {s : State} (a : Access) (h0 : s.status.cfgValid = false) :
    (hostAccess s a).status.cfgValid = false := by
  have heffect := hostEffect_hostAccess s a
  generalize hostAccess s a = u at heffect ⊢
  cases heffect with
  | quiet h => rw [h]; exact h0
  | softReset => rfl
  | statusWrite => rw [writeStatus_eq]; exact h0
  | issue => exact h0
  | configure _ _ hvalid => exact Bool.eq_false_iff.2 fun h1 => by simp [h0] at hvalid; simp [h1] at hvalid
  | store v el => rw [autoInc_status, writeElement_frame]; exact h0

/-- Settles O14: neither a reset nor a host access sets CFG_VALID, and the engine does by CONFIG alone. -/
theorem onlyConfigSetsCfgValid : Obligations.OnlyConfigSetsCfgValid := by
  intro s t ht h0 h1
  match hin : s.inbox with
  | [] =>
    rw [step_no_event hin] at ht
    exact engineMove_sets_cfgValid ht h0 h1
  | .engineTurn :: rest =>
    rw [step_engineTurn hin] at ht
    exact engineMove_sets_cfgValid (s := { s with inbox := rest }) ht h0 h1
  | .resetInput :: rest =>
    rw [step_resetInput hin] at ht
    cases ht
    exact absurd h1 (by simp [State.resetOf])
  | .access a :: rest =>
    rw [step_access hin] at ht
    cases ht
    simp [hostAccess_cfgValid (s := { s with inbox := rest }) a h0] at h1

/-! ## The invariant -/

/-- The invariant right after reset. -/
theorem inv_resetOf {b : Build} (hb : b.Ok) : (State.resetOf b).Inv := by
  refine ⟨hb, resetOf_storageOk b, ?_, ⟨?_, ?_⟩, ?_⟩ <;> simp [State.resetOf]

/-- Settles O11: `inv_resetOf`, and the reference build is one that R6 allows. -/
theorem resetMeetsInvariant : Obligations.ResetMeetsInvariant :=
  ⟨inv_resetOf (by decide), fun _ => inv_resetOf⟩

theorem inv_resetBlock {s : State} (h : s.Inv) : s.resetBlock.Inv := inv_resetOf h.1

theorem inv_finish {i : Instr} {s u : State} (h : s.Inv) (hw : Writes i s u) : u.finish.Inv := by
  have hst := hw.storage h
  have hcv := hw.cfgValid
  obtain ⟨hcaps, -, hfield, herr, -⟩ := h
  refine ⟨?_, hst, ?_, ?_, by simp [State.finish]⟩
  · exact hw.caps ▸ hcaps
  · rw [hw.rest]
    intro hv
    obtain hcv | ⟨-, hf⟩ := hcv
    · exact hfield (hcv ▸ hv)
    · exact hf
  · rw [hw.rest]
    exact herr

theorem inv_failureRecord {s : State} (h : s.Inv) {k : ErrCode} (hk : k ≠ .none) (w : Word) : (failureRecord s k w).Inv := by
  obtain ⟨hcaps, hst, hfield, ⟨-, herr⟩, -⟩ := h
  refine ⟨hcaps, hst, hfield, ⟨by simp [failureRecord], fun _ => ?_⟩, by simp [failureRecord]⟩
  cases he : s.status.err <;> simp [failureRecord, he, hk, herr]

theorem inv_engineMove {s t : State} (h : s.Inv) (ht : engineMove s = .next t) : t.Inv := by
  obtain ⟨h', -⟩ | h' | ⟨w, zs, i, u, -, -, hw, h'⟩ | ⟨w, zs, k, -, hk, h'⟩ := engineMove_effect s <;>
    rw [h'] at ht <;> cases ht
  · exact h
  · obtain ⟨hcaps, hst, hfield, herr, -⟩ := h
    exact ⟨hcaps, hst, hfield, herr, by simp⟩
  · exact inv_finish h hw
  · exact inv_failureRecord h hk w

theorem rowWithWord_lt (row cols w : Nat) (v : Word) : rowWithWord row cols w v < 2 ^ cols :=
  Nat.mod_lt _ (Nat.two_pow_pos _)

/-- Only elements inside the sizes of the build are selected (20_memory.md R63, R70). -/
theorem selectedElement_bounds {s : State} {el : PortElement} (h : selectedElement s = some el) :
    (∀ r j, el = .p r j → j < s.caps.pcap) ∧ (∀ j, el = .sup j → j < s.caps.nmax) := by
  have hsome {c : Prop} [Decidable c] {x : PortElement} (h : (if c then some x else none) = some el) : c ∧ x = el := by
    simpa using h
  unfold selectedElement at h
  dsimp only at h
  split at h
  · obtain ⟨-, rfl⟩ := hsome h
    exact ⟨nofun, nofun⟩
  · obtain ⟨hj, rfl⟩ := hsome h
    exact ⟨fun _ _ heq => by cases heq; exact hj, nofun⟩
  · split at h
    · exact nomatch h
    · obtain ⟨-, rfl⟩ := hsome h
      exact ⟨nofun, nofun⟩
  · split at h
    · exact nomatch h
    · split at h
      · obtain rfl := Option.some.inj h
        exact ⟨nofun, nofun⟩
      · obtain ⟨-, rfl⟩ := hsome h
        exact ⟨nofun, nofun⟩
  · obtain ⟨hj, rfl⟩ := hsome h
    exact ⟨nofun, fun _ heq => by cases heq; exact hj⟩
  · obtain ⟨-, rfl⟩ := hsome h
    exact ⟨nofun, nofun⟩
  · exact nomatch h

theorem matOk_resizeRows {b : Build} {A : Mat} (h : MatOk b A) {n : Nat} (hn : n ≤ b.rmax) (h32 : n < 2 ^ 32) :
    MatOk b (A.resizeRows n) := by
  obtain ⟨-, -, hc, hlt⟩ := h
  have hrows : (A.resizeRows n).rows = n := by
    simp only [Mat.resizeRows, Mat.rows, List.length_append, List.length_take, List.length_replicate]
    omega
  refine ⟨hrows.trans_le hn, hrows.trans_lt h32, hc, fun r hr => ?_⟩
  rcases List.mem_append.1 hr with hr | hr
  · exact hlt r (List.mem_of_mem_take hr)
  · rw [List.eq_of_mem_replicate hr]
    exact Nat.two_pow_pos _

theorem matOk_resizeCols {b : Build} {A : Mat} (h : MatOk b A) {n : Nat} (hn : n ≤ b.cmax) : MatOk b (A.resizeCols n) := by
  obtain ⟨hr, h32, -, -⟩ := h
  refine ⟨by simpa [Mat.resizeCols, Mat.rows] using hr, by simpa [Mat.resizeCols, Mat.rows] using h32, hn, fun r hr => ?_⟩
  obtain ⟨x, -, rfl⟩ := List.mem_map.1 hr
  exact Nat.mod_lt _ (Nat.two_pow_pos _)

/-- A store through the data port keeps the storage well formed (20_memory.md R64-R69). -/
theorem storageOk_writeElement {s : State} (h : s.StorageOk) (v : Word) {el : PortElement}
    (hel : selectedElement s = some el) : (writeElement s v el).StorageOk := by
  obtain ⟨hp, hsup⟩ := selectedElement_bounds hel
  cases el with
  | e i => exact storageOk_setE h i _
  | p r j =>
    obtain ⟨hw, hlen, hlt⟩ := h.2.1 r
    refine storageOk_p h r ⟨Memory.write_wf _ _ hw, ?_, fun c hc => ?_⟩
    · have := Memory.write_length_le s.p[r] j (element s.caps v.toNat)
      have := hp r j rfl
      omega
    · obtain rfl | rfl | hc := Memory.mem_write hc
      · exact element_lt _ _
      · exact Nat.two_pow_pos _
      · exact hlt c hc
  | mdata r row w =>
    simp only [writeElement]
    split
    · obtain ⟨hr, h32, hc, hlt⟩ := h.2.2.1 r
      refine storageOk_putM h r ⟨by simpa [Mat.rows] using hr, by simpa [Mat.rows] using h32, hc, fun x hx => ?_⟩
      obtain hx | rfl := List.mem_or_eq_of_mem_set hx
      · exact hlt x hx
      · exact rowWithWord_lt ..
    · exact h
  | mrows r =>
    simp only [writeElement]
    split
    · exact storageOk_putM h r (matOk_resizeRows (h.2.2.1 r) ‹_› v.isLt)
    · exact h
  | mcols r =>
    simp only [writeElement]
    split
    · exact storageOk_putM h r (matOk_resizeCols (h.2.2.1 r) ‹_›)
    · exact h
  | sup j =>
    obtain ⟨he, hpoly, hm, hw, hlen, hlt⟩ := h
    refine ⟨he, hpoly, hm, Memory.write_wf _ _ hw, ?_, fun c hc => ?_⟩
    · have := Memory.write_length_le s.sup j (element s.caps v.toNat)
      have := hsup j rfl
      simp only [writeElement, State.setSup_sup, State.setSup_caps]
      omega
    · obtain rfl | rfl | hc := Memory.mem_write hc
      · exact element_lt _ _
      · exact Nat.two_pow_pos _
      · exact hlt c hc
  | pdeg i => exact h

theorem inv_hostAccess {s : State} (h : s.Inv) (a : Access) : (hostAccess s a).Inv := by
  have heffect := hostEffect_hostAccess s a
  generalize hostAccess s a = u at heffect ⊢
  cases heffect with
  | quiet hq =>
    rw [hq]
    exact h
  | softReset => exact inv_resetBlock h
  | @statusWrite v =>
    obtain ⟨hcaps, hst, hfield, ⟨herr0, herr1⟩, hdone⟩ := h
    rw [writeStatus_eq]
    refine ⟨hcaps, hst, hfield, ?_, fun hp => by simp [hdone hp]⟩
    cases v.getLsbD 2
    · simpa using ⟨herr0, herr1⟩
    · exact ⟨by simp, by simp⟩
  | issue v =>
    obtain ⟨hcaps, hst, hfield, herr, -⟩ := h
    exact ⟨hcaps, hst, hfield, herr, fun _ => rfl⟩
  | configure hidle hu hvalid =>
    obtain ⟨hcaps, hst, hfield, herr, hdone⟩ := h
    rw [hu]
    refine ⟨hcaps, hst, fun hv => ?_, herr, hdone⟩
    obtain ⟨hv0, hm, hf⟩ := hvalid hv
    simpa [hm, hf] using hfield hv0
  | store v el hidle hel =>
    have hst := storageOk_writeElement h.2.1 v hel
    obtain ⟨hcaps, -, hfield, herr, hdone⟩ := h
    rw [autoInc_eq]
    generalize hu : writeElement s v el = u at hst
    rw [writeElement_frame] at hu
    subst hu
    exact ⟨hcaps, hst, hfield, herr, hdone⟩

/-- Settles O12: a reset, a host access and the engine's move each keep the invariant. -/
theorem everyStepKeepsInvariant : Obligations.EveryStepKeepsInvariant := by
  intro s t h ht
  match hin : s.inbox with
  | [] =>
    rw [step_no_event hin] at ht
    exact inv_engineMove h ht
  | .engineTurn :: rest =>
    rw [step_engineTurn hin] at ht
    exact inv_engineMove (s := { s with inbox := rest }) h ht
  | .resetInput :: rest =>
    rw [step_resetInput hin] at ht
    cases ht
    exact inv_resetBlock (s := { s with inbox := rest }) h
  | .access a :: rest =>
    rw [step_access hin] at ht
    cases ht
    exact inv_hostAccess (s := { s with inbox := rest }) h a

/-! ## Progress -/

/-- The engine's move leaves the block idle and the events alone. -/
theorem engineMove_next (s : State) : ∃ t, engineMove s = .next t ∧ t.pend = .none ∧ t.inbox = s.inbox := by
  obtain ⟨h, hp⟩ | h | ⟨w, zs, i, u, -, -, hw, h⟩ | ⟨w, zs, k, -, -, h⟩ := engineMove_effect s
  · exact ⟨s, h, hp, rfl⟩
  · exact ⟨_, h, rfl, rfl⟩
  · exact ⟨_, h, rfl, by rw [hw.rest]; rfl⟩
  · exact ⟨_, h, rfl, rfl⟩

/-- Every step goes on and takes one event. -/
theorem step_next (s : State) : ∃ t, step s = .next t ∧ t.inbox = s.inbox.tail := by
  match hin : s.inbox with
  | [] =>
    obtain ⟨t, ht, -, hinbox⟩ := engineMove_next s
    exact ⟨t, by rw [step_no_event hin, ht], by simp [hinbox, hin]⟩
  | .engineTurn :: rest =>
    obtain ⟨t, ht, -, hinbox⟩ := engineMove_next { s with inbox := rest }
    exact ⟨t, by rw [step_engineTurn hin, ht], hinbox⟩
  | .resetInput :: rest => exact ⟨_, step_resetInput hin, rfl⟩
  | .access a :: rest => exact ⟨_, step_access hin, (hostAccess_inbox_caps _ a).1⟩

theorem core_run_succ (M : Host.Core) {s t : M.State} (h : M.step s = .next t) (n : Nat) : M.run (n + 1) s = M.run n t := by
  rw [Host.Core.run, h]

theorem run_succ {s t : State} (h : step s = .next t) (n : Nat) : Sys2Proof.core.run (n + 1) s = Sys2Proof.core.run n t :=
  core_run_succ Sys2Proof.core h n

theorem runsOn (s : State) (n : Nat) : RunsOn s n := by
  induction n generalizing s with
  | zero => exact ⟨s, rfl⟩
  | succ n ih =>
    obtain ⟨t, ht, -⟩ := step_next s
    obtain ⟨u, hu⟩ := ih t
    exact ⟨u, by rw [run_succ ht, hu]⟩

/-- After the events to come and one engine move the block is idle. -/
theorem run_idle (n : Nat) (s : State) (h : s.inbox.length = n) :
    ∃ t, Sys2Proof.core.run (n + 1) s = .next t ∧ t.pend = .none ∧ t.inbox = [] := by
  induction n generalizing s with
  | zero =>
    have hin : s.inbox = [] := List.length_eq_zero_iff.1 h
    obtain ⟨t, ht, hp, hinbox⟩ := engineMove_next s
    exact ⟨t, by rw [run_succ (by rw [step_no_event hin, ht])]; rfl, hp, by rw [hinbox, hin]⟩
  | succ n ih =>
    obtain ⟨t, ht, hinbox⟩ := step_next s
    obtain ⟨u, hu, hrest⟩ := ih t (by simp [hinbox, h])
    exact ⟨u, by rw [run_succ ht, hu], hrest⟩

/-- Settles O13: every step goes on, and each takes one event. -/
theorem everyRunBecomesIdle : Obligations.EveryRunBecomesIdle :=
  fun s => ⟨runsOn s, run_idle _ s rfl⟩

end Sys2Proof.Machine
end

section
/-! PROOFS. What the registers read, the values after reset, the interrupt, and the moves (10_state.md R21-R48,
60_exceptions.md R250, 70_reset_and_hazards.md R270-R272). -/

namespace Sys2Proof.Machine

/-! ## Register reads -/

/-- A word read at a multiple of 4 other than DDATA's returns the register and changes nothing else. -/
theorem hostAccess_word_read (s : State) {off : BitVec 8} (haligned : off.toNat % 4 = 0) (hoff : off ≠ 0x48) :
    hostAccess s { off := off, width := .word, kind := .read } = { s with rdata := readRegister s off.toNat } := by
  have h48 : off.toNat ≠ 0x48 := fun h => hoff (BitVec.eq_of_toNat_eq h)
  simp [hostAccess, Access.defined, haligned, busRead, h48]

/-- Nothing is read past DDATA (10_state.md R47). -/
theorem readRegister_reserved (s : State) {off : Nat} (h : 0x4C ≤ off) : readRegister s off = 0 := by
  unfold readRegister
  split
  pick_goal -1
  · rfl
  all_goals omega

theorem toNat_atBit {n : Nat} (v : BitVec n) (lo : Nat) (h : n + lo ≤ 32) : (atBit v lo).toNat = v.toNat <<< lo := by
  have hv := v.isLt
  have h1 : v.toNat < 2 ^ 32 := lt_of_lt_of_le hv (Nat.pow_le_pow_right (by decide) (by omega))
  have h2 : v.toNat <<< lo < 2 ^ 32 := by
    rw [Nat.shiftLeft_eq]
    calc v.toNat * 2 ^ lo < 2 ^ n * 2 ^ lo := Nat.mul_lt_mul_of_pos_right hv (Nat.two_pow_pos _)
      _ = 2 ^ (n + lo) := (Nat.pow_add ..).symm
      _ ≤ 2 ^ 32 := Nat.pow_le_pow_right (by decide) h
  rw [atBit, BitVec.toNat_shiftLeft, BitVec.toNat_setWidth, Nat.mod_eq_of_lt h1, Nat.mod_eq_of_lt h2]

/-- CAP0 in a build that R6 allows (10_state.md R23). -/
theorem cap0_toNat {b : Build} (hb : b.Ok) : (Build.cap0 b).toNat = b.mmax + 2 ^ 16 * b.pcap := by
  obtain ⟨⟨-, hm⟩, ⟨-, hp⟩, -⟩ := hb
  have hm8 : b.mmax < 2 ^ 8 := by omega
  have hp16 : b.pcap < 2 ^ 16 := by omega
  rw [Build.cap0, BitVec.toNat_or, toNat_atBit _ _ (by decide), toNat_atBit _ _ (by decide), BitVec.toNat_ofNat,
    BitVec.toNat_ofNat, Nat.mod_eq_of_lt hm8, Nat.mod_eq_of_lt hp16, Nat.shiftLeft_zero, Nat.or_comm,
    ← Nat.shiftLeft_add_eq_or_of_lt (by omega : b.mmax < 2 ^ 16), Nat.shiftLeft_eq]
  omega

/-- The bits of CTRL (10_state.md R25). -/
theorem ctrlWord_bits (c : Ctrl) : c.word.getLsbD 0 = false ∧ c.word.getLsbD 1 = c.irqEn ∧ c.word.getLsbD 2 = c.zsPass ∧
    c.word.extractLsb' 3 29 = 0 := by
  obtain ⟨i, z⟩ := c
  revert i z
  decide

/-- The bits of STATUS (10_state.md R26), as a function of what it shows. -/
theorem statusBits (b d e em o a c : Bool) (k : Byte) :
    let w := atBit (bit1 b) 0 ||| atBit (bit1 d) 1 ||| atBit (bit1 e) 2 ||| atBit (bit1 em) 3 ||| atBit (bit1 o) 4 |||
      atBit (bit1 a) 5 ||| atBit (bit1 c) 6 ||| atBit k 8
    w.getLsbD 0 = b ∧ w.getLsbD 1 = d ∧ w.getLsbD 2 = e ∧ w.getLsbD 3 = em ∧ w.getLsbD 4 = o ∧ w.getLsbD 5 = a ∧
      w.getLsbD 6 = c ∧ w.getLsbD 7 = false ∧ w.extractLsb' 8 8 = k ∧ w.extractLsb' 16 16 = 0 := by
  intro w
  have hext8 : w.extractLsb' 8 8 = k := by
    ext i hi
    interval_cases i <;> simp [w, getElem_atBit, bit1]
  have hext16 : w.extractLsb' 16 16 = 0 := by
    ext i hi
    interval_cases i <;> simp [w, getElem_atBit, bit1]
  refine ⟨?_, ?_, ?_, ?_, ?_, ?_, ?_, ?_, hext8, hext16⟩ <;> simp [w, getElem_atBit, bit1]

/-- The bits of DSEL (10_state.md R37). -/
theorem dselWord_bits (d : Dsel) : d.word.extractLsb' 0 3 = d.space ∧ d.word.extractLsb' 3 5 = 0 ∧
    d.word.extractLsb' 8 4 = d.reg ∧ d.word.extractLsb' 12 4 = 0 ∧ d.word.getLsbD 16 = d.autoinc ∧
    d.word.extractLsb' 17 15 = 0 := by
  refine ⟨?_, ?_, ?_, ?_, ?_, ?_⟩
  case refine_5 => simp [Dsel.word, getElem_atBit, bit1]
  all_goals
    ext i hi
    interval_cases i <;> simp [Dsel.word, getElem_atBit, bit1]

/-- Settles O22: a read is `readRegister`, whose values are read off the words of CAP0, CTRL, STATUS and DSEL. -/
theorem registerReadsHaveNoSideEffect : Obligations.RegisterReadsHaveNoSideEffect := by
  intro s val
  have hread : ∀ off : BitVec 8, off.toNat % 4 = 0 → off ≠ 0x48 → val off = readRegister s off.toNat := by
    intro off h4 h48
    simp only [val, hostAccess_word_read s h4 h48]
  have hstatus := statusBits s.busy s.status.done s.status.err s.status.errm s.status.ovr s.status.aerr s.status.cfgValid
    s.status.errcode.value
  refine ⟨?effect, hread _ (by decide) (by decide), ?caps, ?ctrl, ?status, hread _ (by decide) (by decide),
    hread _ (by decide) (by decide), ?cfgM, hread _ (by decide) (by decide), hread _ (by decide) (by decide),
    hread _ (by decide) (by decide), hread _ (by decide) (by decide), hread _ (by decide) (by decide), ?flag, ?dsel,
    hread _ (by decide) (by decide), ?reserved⟩
  case effect =>
    intro off h4 h48
    rw [hread off h4 h48, hostAccess_word_read s h4 h48]
  case caps =>
    intro hb
    have hcap0 := cap0_toNat hb
    obtain ⟨-, -, ⟨-, -, hnc⟩, -, -, hc, -⟩ := hb
    refine ⟨by rw [hread _ (by decide) (by decide)]; exact hcap0, fun hr => ?_, ?_, ?_⟩ <;>
      rw [hread _ (by decide) (by decide)]
    · exact Nat.mod_eq_of_lt hr
    · exact Nat.mod_eq_of_lt hc
    · exact Nat.mod_eq_of_lt (by omega : s.caps.nmax < 2 ^ 32)
  case ctrl =>
    rw [hread _ (by decide) (by decide)]
    exact ctrlWord_bits s.ctrl
  case status =>
    rw [hread _ (by decide) (by decide)]
    obtain ⟨h0, h1, h2, h3, h4, h5, h6, h7, hcode, hrest⟩ := hstatus
    refine ⟨?_, h1, h2, h3, h4, h5, h6, h7, hcode.trans ?_, hrest⟩
    · rw [← busy_eq_true_iff]
      exact Iff.of_eq (congrArg (· = true) h0)
    · cases s.status.errcode <;> rfl
  case cfgM =>
    rw [hread _ (by decide) (by decide)]
    exact toNat_atBit s.cfgM 0 (by decide)
  case flag =>
    rw [hread _ (by decide) (by decide)]
    change atBit (bit1 s.resFlag) 0 = _
    cases s.resFlag <;> decide
  case dsel =>
    rw [hread _ (by decide) (by decide)]
    exact dselWord_bits s.dsel
  case reserved =>
    intro off h4 hoff
    rw [hread off h4 (fun h => absurd hoff (by subst h; decide))]
    exact readRegister_reserved s hoff

/-! ## DIDX after a data-port access -/

/-- A store through the data port leaves the selectors. -/
theorem writeElement_selectors (s : State) (v : Word) (el : PortElement) :
    (writeElement s v el).dsel = s.dsel ∧ (writeElement s v el).didx = s.didx := by
  rw [writeElement_frame]
  exact ⟨rfl, rfl⟩

theorem readData_idle {s : State} {el : PortElement} (hidle : s.pend = .none) (hel : selectedElement s = some el) :
    readData s = (readElement s el, { s with didx := s.nextDidx }) := by
  simp [readData, (busy_eq_false_iff s).2 hidle, hel, autoInc_eq]

theorem writeData_idle {s : State} {el : PortElement} (v : Word) (hidle : s.pend = .none)
    (hel : selectedElement s = some el) : writeData s v = { writeElement s v el with didx := s.nextDidx } := by
  obtain ⟨hd, hi⟩ := writeElement_selectors s v el
  simp [writeData, (busy_eq_false_iff s).2 hidle, hel, autoInc_eq, State.nextDidx, hd, hi]

/-- AUTOINC follows a DDATA access while idle, accepted or not (20_memory.md R71). -/
theorem hostAccess_ddata_didx {s : State} (k : AccessKind) (hidle : s.pend = .none) :
    (hostAccess s { off := 0x48, width := .word, kind := k }).didx = s.nextDidx := by
  cases k with
  | read =>
    rw [hostAccess_ddata_read]
    cases hel : selectedElement s with
    | none => rw [readData_rejected hidle hel, autoInc_eq]; rfl
    | some el => rw [readData_idle hidle hel]
  | write v =>
    rw [hostAccess_ddata_write]
    cases hel : selectedElement s with
    | none => rw [writeData_rejected v hidle hel, autoInc_eq]; rfl
    | some el => rw [writeData_idle v hidle hel]

/-- Settles O28: DIDX is `State.nextDidx` after an access while idle, and `setOvr` leaves it while busy. -/
theorem autoincFollowsEveryIdleAccess : Obligations.AutoincFollowsEveryIdleAccess := by
  intro s k
  constructor
  · intro hidle
    rw [hostAccess_ddata_didx k hidle, State.nextDidx]
    split
    · simp
    · rfl
  · intro hbusy
    cases k with
    | read => rw [hostAccess_ddata_read, readData_busy hbusy]; rfl
    | write v => rw [hostAccess_ddata_write, writeData_busy v hbusy]; rfl

/-! ## Reset -/

/-- Settles O29: the registers and files of `State.reset` evaluated, index by index. -/
theorem resetValues : Obligations.ResetValues := by
  refine ⟨rfl, by decide, by decide, by decide, by decide, by decide, by decide, ?_, ?_, ?_, ?_, ?_, by decide⟩
  · have h : ∀ k : Fin 64, k.val ∉ [0, 1, 2, 3, 4, 6] → readRegister State.reset (4 * k.val) = 0 := by decide
    intro k hk h0 h1 h2 h3 h4 h6
    exact h ⟨k, hk⟩ (by simp [h0, h1, h2, h3, h4, h6])
  · decide
  · intro i j
    simp [State.reset, State.resetOf]
  · intro i
    simp [State.reset, State.resetOf, Mat.rows, Mat.bit, Mat.rowAt]
  · intro j
    simp [State.reset, State.resetOf, Memory.read]

/-- A soft reset is the reset of the block (10_state.md R25). -/
theorem hostAccess_softReset (s : State) {v : Word} (hv : v.getLsbD 0 = true) :
    hostAccess s { off := 0x14, width := .word, kind := .write v } = s.resetBlock := by
  rw [hostAccess_word_write s v (by decide)]
  exact if_pos hv

/-- Settles O30: both events lead to `State.resetBlock`, whose fields are those of `State.resetOf`. -/
theorem resetClearsTheBlock : Obligations.ResetClearsTheBlock := by
  intro s v rest hv t
  refine ⟨fun hin => ?_, fun hin => ?_, rfl, rfl, rfl, rfl, rfl, rfl, rfl, rfl, rfl, rfl, ?_, ?_, ?_, rfl⟩
  · rw [step_resetInput hin]
    rfl
  · rw [step_access hin, hostAccess_softReset _ hv]
    rfl
  all_goals
    intro i
    simp [t, State.resetOf]

/-! ## The interrupt -/

theorem irq_iff (s : State) : s.irq = true ↔ s.ctrl.irqEn = true ∧ (s.status.done = true ∨ s.status.err = true) := by
  simp [State.irq]

theorem irq_resetBlock (s : State) : s.resetBlock.irq = false := rfl

/-- A CTRL write without the reset bit stores IRQ_EN and ZS_PASS (10_state.md R25). -/
theorem hostAccess_ctrl_write (s : State) {v : Word} (hv : v.getLsbD 0 = false) :
    hostAccess s { off := 0x14, width := .word, kind := .write v } =
      { s with ctrl := { irqEn := v.getLsbD 1, zsPass := v.getLsbD 2 } } := by
  rw [hostAccess_word_write s v (by decide)]
  exact if_neg (by simpa using hv)

/-- Settles O32: every completion sets DONE (O7) and keeps CTRL (O8); the writes of CTRL and STATUS do what R25 and R26 say. -/
theorem interruptFollowsCompletion : Obligations.InterruptFollowsCompletion := by
  refine ⟨irq_iff, ?complete, fun s v => hostAccess_ctrl_write s, ?enable, ?clear, ?disable, irq_resetBlock⟩
  case complete =>
    intro i s t hen ht
    obtain ⟨u, hu, -, hdone, -⟩ := everyCommandCompletesPrecisely i s
    obtain rfl : u = t := by simpa [hu] using ht
    obtain ⟨-, -, -, -, -, -, -, -, -, -, -, hctrl, -⟩ := commandsWriteOnlyTheirDestinations i s u hu
    exact (irq_iff u).2 ⟨by rw [hctrl, hen], .inl hdone⟩
  case enable =>
    intro s v h0 h1 hsource
    rw [hostAccess_ctrl_write s h0]
    exact (irq_iff _).2 ⟨h1, hsource⟩
  case clear =>
    intro s v h1 h2
    rw [statusWriteClearsBits s v]
    simp only [State.irq, h1, h2]
    simp
  case disable =>
    intro s v h1
    cases h0 : v.getLsbD 0 with
    | true => rw [hostAccess_softReset s h0]; rfl
    | false =>
      rw [hostAccess_ctrl_write s h0]
      simp only [State.irq, h1]
      rfl

/-! ## NOP and the moves -/

/-- The completion of a command whose body is one write, without a check. -/
theorem exec_unchecked {i : Instr} {s u : State} (hexec : exec i s = complete i s (.ok u)) (hw : i.wellFormed = true)
    (hf : needsField i = false) : exec i s = .next u.finish :=
  hexec.trans (complete_ok hw (by simp [hf]) rfl)

/-- Settles O33: none of the four has a check, and each body is one move of a register. -/
theorem nopAndMovesComplete : Obligations.NopAndMovesComplete := by
  intro s
  refine ⟨⟨_, exec_unchecked rfl rfl rfl, rfl⟩, fun a b => ?_, fun a b => ?_, fun a b => ?_⟩
  · refine ⟨(s.moveE a b).finish, exec_unchecked rfl rfl rfl, ?_, ?_⟩
    · simp [State.finish, State.moveE]
    · simp [OnlyE, OnlyCompletes, State.finish, State.moveE]
  · refine ⟨(s.moveP a b).finish, exec_unchecked rfl rfl rfl, ?_, ?_⟩
    · simp [State.finish, State.moveP]
    · simp [OnlyP, OnlyCompletes, State.finish, State.moveP]
  · refine ⟨(s.moveM a b).finish, exec_unchecked rfl rfl rfl, ?_, ?_⟩
    · simp [State.finish, State.moveM]
    · simp [OnlyM, OnlyCompletes, State.finish, State.moveM]

end Sys2Proof.Machine
end

section
/-! PROOFS. The data port space by space while the block is idle (20_memory.md R64-R69, R71). -/

namespace Sys2Proof.Machine

/-! ## The element selected -/

theorem fin16_ofNat {n : Nat} {i : Fin 16} (h : n = i.val) : Fin.ofNat 16 n = i := by
  subst h
  exact Fin.ext (Nat.mod_eq_of_lt i.isLt)

theorem selectedElement_e {s : State} {i : Fin 16} (hs : s.dsel.space = 0) (hi : s.didx.toNat = i.val) :
    selectedElement s = some (.e i) := by
  rw [selectedElement_space_e hs, if_pos (hi ▸ i.isLt), fin16_ofNat hi]

theorem selectedElement_p {s : State} {i : Fin 16} (hs : s.dsel.space = 1) (hr : s.dsel.reg.toNat = i.val)
    (hi : s.didx.toNat < s.caps.pcap) : selectedElement s = some (.p i s.didx.toNat) := by
  rw [selectedElement_space_p hs, if_pos hi, fin16_ofNat hr]

theorem selectedElement_sup {s : State} (hs : s.dsel.space = 4) (hi : s.didx.toNat < s.caps.nmax) :
    selectedElement s = some (.sup s.didx.toNat) := by
  rw [selectedElement_space_sup hs, if_pos hi]

theorem selectedElement_pdeg {s : State} {i : Fin 16} (hs : s.dsel.space = 5) (hi : s.didx.toNat = i.val) :
    selectedElement s = some (.pdeg i) := by
  rw [selectedElement_space_pdeg hs, if_pos (hi ▸ i.isLt), fin16_ofNat hi]

theorem selectedM_eq {s : State} {k : MReg} (hk : s.dsel.reg.toNat = k.val) : selectedM s = some k := by
  rw [selectedM, if_pos (hk ▸ k.isLt), hk]
  exact congrArg some (Fin.ext (Nat.mod_eq_of_lt k.isLt))

theorem selectedElement_mdata {s : State} {k : MReg} (hs : s.dsel.space = 2) (hk : s.dsel.reg.toNat = k.val)
    (hi : s.didx.toNat < s.caps.rmax * s.caps.wpr) :
    selectedElement s = some (.mdata k (s.didx.toNat / s.caps.wpr) (s.didx.toNat % s.caps.wpr)) := by
  rw [selectedElement_space_mdata hs, selectedM_eq hk, Option.bind_some, if_pos hi]

theorem selectedElement_mrows {s : State} {k : MReg} (hs : s.dsel.space = 3) (hk : s.dsel.reg.toNat = k.val)
    (hi : s.didx = 0) : selectedElement s = some (.mrows k) := by
  rw [selectedElement_space_mdim hs, selectedM_eq hk, Option.bind_some, if_pos (by simp [hi])]

theorem selectedElement_mcols {s : State} {k : MReg} (hs : s.dsel.space = 3) (hk : s.dsel.reg.toNat = k.val)
    (hi : s.didx = 1) : selectedElement s = some (.mcols k) := by
  rw [selectedElement_space_mdim hs, selectedM_eq hk, Option.bind_some, if_neg (by simp [hi]), if_pos (by simp [hi])]

/-! ## An accepted access -/

theorem hostAccess_port_read {s : State} {el : PortElement} (hidle : s.pend = .none) (hel : selectedElement s = some el) :
    hostAccess s { off := 0x48, width := .word, kind := .read } =
      { s with rdata := readElement s el, didx := s.nextDidx } := by
  rw [hostAccess_ddata_read, readData_idle hidle hel]

theorem hostAccess_port_write {s : State} {el : PortElement} (v : Word) (hidle : s.pend = .none)
    (hel : selectedElement s = some el) :
    hostAccess s { off := 0x48, width := .word, kind := .write v } =
      { writeElement s v el with didx := s.nextDidx } := by
  rw [hostAccess_ddata_write, writeData_idle v hidle hel]

/-! ## E, P and SUP -/

theorem two_pow_mmax_le {b : Build} (hb : b.Ok) : 2 ^ b.mmax ≤ 2 ^ 31 := Nat.pow_le_pow_right (by decide) hb.1.2

/-- An element fits the 32 bits of a read. -/
theorem ofNat_element_toNat {b : Build} (hb : b.Ok) {x : Nat} (hx : x < 2 ^ b.mmax) : (BitVec.ofNat 32 x).toNat = x := by
  have := two_pow_mmax_le hb
  exact Nat.mod_eq_of_lt (by omega)

/-- An entry of a memory of elements is one of them, or the 0 of an unlisted entry. -/
theorem read_lt {mem : Memory} {n : Nat} (h : ∀ v ∈ mem, v < 2 ^ n) (i : Nat) : Memory.read mem i < 2 ^ n := by
  rw [Memory.read, List.getD_eq_getElem?_getD]
  cases hi : mem[i]? with
  | none => exact Nat.two_pow_pos n
  | some v => exact h v (List.mem_of_getElem? hi)

/-- Settles O23: the selected element is `E[i]`, `P[i].c[j]` or `SUP[j]`, and `Memory.read_write` reads the file after the write. -/
theorem portStoresElements : Obligations.PortStoresElements := by
  intro s v hinv hidle wr rd
  obtain ⟨hb, ⟨he, hp, -, hsup⟩, -⟩ := hinv
  refine ⟨fun i hs hi => ?_, fun i hs hr hi => ?_, fun hs hi => ?_⟩
  · have hel := selectedElement_e hs hi
    have hrd : rd = _ := hostAccess_port_read hidle hel
    refine ⟨hostAccess_port_write v hidle hel, by rw [hrd], ?_⟩
    rw [hrd]
    exact ofNat_element_toNat hb (he i)
  · have hel := selectedElement_p hs hr hi
    have hrd : rd = _ := hostAccess_port_read hidle hel
    have hwr : wr = _ := hostAccess_port_write v hidle hel
    have hpi : wr.p[i] = Memory.write s.p[i] s.didx.toNat (element s.caps v.toNat) := by
      rw [hwr]
      simp [writeElement]
    refine ⟨by rw [hpi, hwr]; rfl, fun j => ?_, by rw [hrd], ?_⟩
    · rw [hpi]
      exact Memory.read_write ..
    · rw [hrd]
      exact ofNat_element_toNat hb (read_lt (hp i).2.2 _)
  · have hel := selectedElement_sup hs hi
    have hrd : rd = _ := hostAccess_port_read hidle hel
    have hwr : wr = _ := hostAccess_port_write v hidle hel
    refine ⟨by rw [hwr]; rfl, fun j => ?_, by rw [hrd], ?_⟩
    · rw [hwr]
      exact Memory.read_write ..
    · rw [hrd]
      exact ofNat_element_toNat hb (read_lt hsup.2.2 _)

/-! ## MDATA -/

theorem Mat.rowAt_lt {A : Mat} (h : ∀ r ∈ A.row, r < 2 ^ A.cols) (i : Nat) : A.rowAt i < 2 ^ A.cols := read_lt h i

/-- No bit outside the columns (10_state.md R42). -/
theorem Mat.bit_of_cols_le {A : Mat} (h : ∀ r ∈ A.row, r < 2 ^ A.cols) (i : Nat) {j : Nat} (hj : A.cols ≤ j) :
    A.bit i j = false :=
  Nat.testBit_lt_two_pow (lt_of_lt_of_le (A.rowAt_lt h i) (Nat.pow_le_pow_right (by decide) hj))

/-- No bit past the rows (10_state.md R42). -/
theorem Mat.bit_of_rows_le {A : Mat} {i : Nat} (j : Nat) (hi : A.rows ≤ i) : A.bit i j = false := by
  have : A.rowAt i = 0 := by
    rw [Mat.rowAt, List.getD_eq_getElem?_getD, List.getElem?_eq_none hi]
    rfl
  simp [Mat.bit, this]

/-- The bits of a row with one word replaced (20_memory.md R66). -/
theorem testBit_rowWithWord (row cols w : Nat) (v : Word) (j : Nat) :
    (rowWithWord row cols w v).testBit j =
      (decide (j < cols) && if 32 * w ≤ j ∧ j < 32 * w + 32 then v.getLsbD (j - 32 * w) else row.testBit j) := by
  rw [rowWithWord, Nat.testBit_mod_two_pow, Nat.testBit_or, Nat.testBit_xor, Nat.testBit_shiftLeft, Nat.testBit_shiftLeft,
    Nat.testBit_mod_two_pow, Nat.testBit_shiftRight]
  congr 1
  by_cases hlo : 32 * w ≤ j
  · rw [show 32 * w + (j - 32 * w) = j by omega]
    by_cases hhi : j < 32 * w + 32
    · have : j - 32 * w < 32 := by omega
      simp [hlo, hhi, this, BitVec.getLsbD]
    · have h32 : ¬ j - 32 * w < 32 := by omega
      have hv : v.toNat.testBit (j - 32 * w) = false := BitVec.getLsbD_of_ge v _ (by omega)
      simp [hlo, hhi, h32, hv]
  · simp [hlo]

/-- A row replaced, bit by bit. -/
theorem bit_set_row (A : Mat) {row : Nat} (hrow : row < A.rows) (x i j : Nat) :
    ({ A with row := A.row.set row x } : Mat).bit i j = if i = row then x.testBit j else A.bit i j := by
  simp only [Mat.bit, Mat.rowAt, List.getD_eq_getElem?_getD, List.getElem?_set]
  by_cases h : row = i
  · subst h
    rw [if_pos rfl, if_pos rfl, if_pos (show row < A.row.length from hrow)]
    rfl
  · rw [if_neg h, if_neg fun h' => h h'.symm]

theorem writeElement_mdata {s : State} (v : Word) (k : MReg) {row : Nat} (w : Nat) (h : row < s.m[k].rows) :
    writeElement s v (.mdata k row w) =
      s.putM k { s.m[k] with row := s.m[k].row.set row (rowWithWord (s.m[k].rowAt row) s.m[k].cols w v) } :=
  if_pos h

/-- Settles O24: the row read or replaced is the one of DIDX, and `testBit_rowWithWord` gives the bits of the new row. -/
theorem portStoresMatrixWords : Obligations.PortStoresMatrixWords := by
  intro s v k hinv hidle hs hk hi wr rd row lo
  have hel := selectedElement_mdata hs hk hi
  have hrd : rd = _ := hostAccess_port_read hidle hel
  have hwr : wr = _ := hostAccess_port_write v hidle hel
  obtain ⟨-, -, -, hlt⟩ := inv_matOk hinv k
  refine ⟨by rw [hrd], fun j hj => ?_, ?_⟩
  · rw [hrd]
    simp only [readElement, BitVec.getLsbD_ofNat, hj, decide_true, Bool.true_and, Nat.testBit_shiftRight, Mat.bit]
    rfl
  · by_cases hrow : row < s.m[k].rows
    · rw [writeElement_mdata v k _ hrow] at hwr
      have hm : wr.m[k] = { s.m[k] with
          row := s.m[k].row.set row (rowWithWord (s.m[k].rowAt row) s.m[k].cols (s.didx.toNat % s.caps.wpr) v) } := by
        rw [hwr]
        simp [row]
      refine ⟨by rw [hm, hwr]; rfl, by simp [hm, Mat.rows], by rw [hm], fun i j => ?_⟩
      rw [hm, bit_set_row _ hrow, testBit_rowWithWord]
      by_cases hir : i = row
      · subst hir
        rw [if_pos rfl]
        by_cases hj : j < s.m[k].cols
        · simp only [hj, hrow, decide_true, Bool.true_and, true_and, lo]
          rfl
        · rw [Mat.bit_of_cols_le hlt _ (by omega), decide_eq_false hj, Bool.false_and, if_neg (by omega)]
      · rw [if_neg hir, if_neg (by omega)]
    · have hsame : writeElement s v (.mdata k row (s.didx.toNat % s.caps.wpr)) = s := if_neg hrow
      rw [hsame] at hwr
      have hm : wr.m[k] = s.m[k] := by rw [hwr]
      rw [hm]
      refine ⟨by rw [hwr]; simp, rfl, rfl, fun i j => ?_⟩
      rw [if_neg (by omega)]

/-! ## MDIM -/

theorem resizeRows_rows (A : Mat) (n : Nat) : (A.resizeRows n).rows = n := by
  simp only [Mat.resizeRows, Mat.rows, List.length_append, List.length_take, List.length_replicate]
  omega

theorem bit_resizeRows (A : Mat) (n i j : Nat) : (A.resizeRows n).bit i j = (decide (i < n) && A.bit i j) := by
  by_cases hi : i < n
  · rw [decide_eq_true hi, Bool.true_and]
    by_cases hA : i < A.row.length
    · have : i < (A.row.take n).length := by simp; omega
      simp [Mat.bit, Mat.rowAt, Mat.resizeRows, List.getElem?_append_left this, hi]
    · have h0 : A.bit i j = false := Mat.bit_of_rows_le j (Nat.not_lt.1 hA)
      have : (A.row.take n).length ≤ i := by simp; omega
      rw [h0]
      simp [Mat.bit, Mat.rowAt, Mat.resizeRows, List.getElem?_append_right this, List.getElem?_replicate]
      split <;> simp
  · rw [Mat.bit_of_rows_le j (by rw [resizeRows_rows]; omega)]
    simp [hi]

@[simp] theorem resizeCols_rows (A : Mat) (n : Nat) : (A.resizeCols n).rows = A.rows := by simp [Mat.resizeCols, Mat.rows]

theorem bit_resizeCols (A : Mat) (n i j : Nat) : (A.resizeCols n).bit i j = (decide (j < n) && A.bit i j) := by
  simp only [Mat.bit, Mat.rowAt, Mat.resizeCols, List.getD_eq_getElem?_getD, List.getElem?_map]
  cases A.row[i]? with
  | none => simp
  | some r => simp [Nat.testBit_mod_two_pow]

theorem writeElement_mrows {s : State} {v : Word} (k : MReg) (h : v.toNat ≤ s.caps.rmax) :
    writeElement s v (.mrows k) = s.putM k (s.m[k].resizeRows v.toNat) := if_pos h

theorem writeElement_mrows_refused {s : State} {v : Word} (k : MReg) (h : s.caps.rmax < v.toNat) :
    writeElement s v (.mrows k) = s.setAerr := if_neg (Nat.not_le.2 h)

theorem writeElement_mcols {s : State} {v : Word} (k : MReg) (h : v.toNat ≤ s.caps.cmax) :
    writeElement s v (.mcols k) = s.putM k (s.m[k].resizeCols v.toNat) := if_pos h

theorem writeElement_mcols_refused {s : State} {v : Word} (k : MReg) (h : s.caps.cmax < v.toNat) :
    writeElement s v (.mcols k) = s.setAerr := if_neg (Nat.not_le.2 h)

/-- Settles O25: a dimension within its limit resizes the register, another only sets AERR. -/
theorem portSetsMatrixDimensions : Obligations.PortSetsMatrixDimensions := by
  intro s v k hinv hidle hs hk wr rd
  have hcmax := cmax_lt hinv
  obtain ⟨-, hrows, hcols, -⟩ := inv_matOk hinv k
  refine ⟨fun hi => ?_, fun hi => ?_⟩
  · have hel := selectedElement_mrows hs hk hi
    have hrd : rd = _ := hostAccess_port_read hidle hel
    have hwr : wr = _ := hostAccess_port_write v hidle hel
    refine ⟨by rw [hrd], by rw [hrd]; exact Nat.mod_eq_of_lt hrows, fun hv => ?_, fun hv => ?_⟩
    · rw [writeElement_mrows k hv] at hwr
      have hm : wr.m[k] = s.m[k].resizeRows v.toNat := by rw [hwr]; simp
      rw [hm]
      exact ⟨hwr, resizeRows_rows .., rfl, bit_resizeRows _ _⟩
    · rw [hwr, writeElement_mrows_refused k hv]
      rfl
  · have hel := selectedElement_mcols hs hk hi
    have hrd : rd = _ := hostAccess_port_read hidle hel
    have hwr : wr = _ := hostAccess_port_write v hidle hel
    refine ⟨by rw [hrd], by rw [hrd]; exact Nat.mod_eq_of_lt (hcols.trans_lt hcmax), fun hv => ?_, fun hv => ?_⟩
    · rw [writeElement_mcols k hv] at hwr
      have hm : wr.m[k] = s.m[k].resizeCols v.toNat := by rw [hwr]; simp
      rw [hm]
      exact ⟨hwr, resizeCols_rows .., rfl, bit_resizeCols _ _⟩
    · rw [hwr, writeElement_mcols_refused k hv]
      rfl

/-! ## PDEG -/

/-- The degree of a canonical polynomial is its last place. -/
theorem deg_of_wf {A : Poly} (h : Memory.wf A) : deg A = (A.length : Int) - 1 := by rw [deg, norm_of_wf h]

/-- The degree as a 32-bit word, for a polynomial other than 0. -/
theorem ofInt_deg_toNat {A : Poly} (h : Memory.wf A) (hne : A ≠ []) (hlen : A.length ≤ 2 ^ 32) :
    (BitVec.ofInt 32 (deg A)).toNat = (deg A).toNat := by
  have := List.length_pos_of_ne_nil hne
  rw [BitVec.toNat_ofInt, deg_of_wf h]
  omega

/-- Settles O26: the word read is the degree, the place of the leading coefficient. -/
theorem portReadsDegrees : Obligations.PortReadsDegrees := by
  intro s v i hinv hidle hs hi
  have hel := selectedElement_pdeg hs hi
  obtain ⟨hwf, hlen, -⟩ := inv_polyOk hinv i
  have hpcap : s.caps.pcap ≤ 65535 := hinv.1.2.1.2
  refine ⟨hostAccess_port_write v hidle hel, _, hostAccess_port_read hidle hel, fun h0 => ?_, fun hne => ?_⟩
  · simp only [readElement, h0]
    decide
  · have hpos := List.length_pos_of_ne_nil hne
    have hdeg := deg_of_wf hwf
    rw [readElement, ofInt_deg_toNat hwf hne (by omega)]
    exact ⟨coeff_deg_ne_zero (by omega), fun j hj => coeff_of_deg_lt (by omega)⟩

end Sys2Proof.Machine
end

section
/-! PROOFS. The completion of a pending command does not depend on what the host sets up meanwhile (44_goppa.md R223,
70_reset_and_hazards.md R282, R286). -/

namespace Sys2Proof.Machine

/-- `s` with another CTRL, DSEL, DIDX, other events to come and another last read value. -/
def State.withHostSetup (s : State) (c : Ctrl) (d : Dsel) (x : Word) (l : List HostEvent) (r : Word) : State :=
  { s with ctrl := c, dsel := d, didx := x, inbox := l, rdata := r }

/-- A command under which another host setup goes through unchanged: `g` is the change of setup. -/
theorem complete_map {i : Instr} {s t : State} {body : Except ErrCode State} {g : State → State}
    (hvalid : (g s).status = s.status) (hfinish : ∀ u, (g u).finish = g u.finish)
    (hfail : ∀ k w, (g s).fail k w = g (s.fail k w)) (h : complete i s body = .next t) :
    complete i (g s) (body.map g) = .next (g t) := by
  have hout : commandOutcome i (g s) (body.map g) = (commandOutcome i s body).map g := by
    simp only [commandOutcome, hvalid, require_bind]
    split
    · split <;> rfl
    · rfl
  unfold complete at h ⊢
  rw [hout]
  cases ho : commandOutcome i s body with
  | ok u =>
    obtain rfl : u.finish = t := by simpa [ho] using h
    exact congrArg _ (hfinish u)
  | error k =>
    obtain rfl : s.fail k (encode i) = t := by simpa [ho] using h
    exact congrArg _ (hfail k _)

theorem map_bind {α β γ : Type} (g : β → γ) (x : Except ErrCode α) (f : α → Except ErrCode β) :
    (x >>= f).map g = x >>= fun a => (f a).map g := by
  cases x <;> rfl

section
variable {s : State} {w : Word} {zs : Bool} (c : Ctrl) (d : Dsel) (x : Word) (l : List HostEvent) (r : Word)

theorem sampledZs_run (h : s.pend = .run w zs) : s.sampledZs = zs := by simp [State.sampledZs, h]

/-- The body of a command under another host setup: the same checks, the same writes. -/
theorem exec_body_withHostSetup (i : Instr) (h : s.pend = .run w zs) :
    ∃ body, exec i s = complete i s body ∧
      exec i (s.withHostSetup c d x l r) =
        complete i (s.withHostSetup c d x l r) (body.map fun u => u.withHostSetup c d x l r) := by
  have hzs : s.sampledZs = zs := sampledZs_run h
  have hzs' : (s.withHostSetup c d x l r).sampledZs = zs := sampledZs_run h
  cases i with
  | patterson _ _ _ _ | decode _ _ _ _ _ =>
    refine ⟨_, rfl, ?_⟩
    simp only [map_bind, hzs]
    simp only [exec, execPatterson, execDecode, hzs']
    rfl
  | nop | emov _ _ | pmov _ _ | mmov _ _ => exact ⟨.ok _, rfl, rfl⟩
  | _ =>
    refine ⟨_, rfl, ?_⟩
    simp only [map_bind]
    rfl

theorem exec_withHostSetup {t : State} (i : Instr) (h : s.pend = .run w zs) (ht : exec i s = .next t) :
    exec i (s.withHostSetup c d x l r) = .next (t.withHostSetup c d x l r) := by
  obtain ⟨body, hexec, hexec'⟩ := exec_body_withHostSetup c d x l r i h
  rw [hexec']
  refine complete_map (g := fun u => u.withHostSetup c d x l r) rfl (fun _ => rfl) (fun k v => ?_) (hexec ▸ ht)
  rw [fail_eq_failureRecord, fail_eq_failureRecord]
  rfl

/-- The engine's move on a pending word under another host setup. -/
theorem engineMove_withHostSetup {t : State} (h : s.pend = .run w zs) (ht : engineMove s = .next t) :
    engineMove (s.withHostSetup c d x l r) = .next (t.withHostSetup c d x l r) := by
  have h' : (s.withHostSetup c d x l r).pend = .run w zs := h
  rw [engineMove_run h] at ht
  rw [engineMove_run h']
  cases hdec : decodeWord w with
  | ok i =>
    rw [runWord_ok _ hdec] at ht ⊢
    exact exec_withHostSetup c d x l r i h ht
  | error e =>
    rw [runWord_error _ hdec] at ht ⊢
    cases ht
    rfl

end

/-- Settles O15: every body reads neither the setup nor, with a command pending, CTRL.ZS_PASS. -/
theorem pendingCommandIgnoresHostSetup : Obligations.PendingCommandIgnoresHostSetup :=
  fun _ _ _ _ c d x l r h ht => engineMove_withHostSetup c d x l r h ht

end Sys2Proof.Machine
end

section
/-! PROOFS. A command by its checks: what it needs to complete and how it fails; SUPINIT, and the checks of the polynomial, matrix and
Goppa commands in their order (30_encoding.md R93, 40_system.md R112-R118, 42_polynomial.md R150, 43_matrix.md, 44_goppa.md R210). -/

namespace Sys2Proof.Machine

/-- A command whose body succeeds completes with its writes. -/
theorem exec_completes {i : Instr} {s u : State} {body : Except ErrCode State} (hexec : exec i s = complete i s body)
    (hw : i.wellFormed = true) (hv : s.status.cfgValid = true) (hb : body = .ok u) : exec i s = .next u.finish :=
  hexec.trans (complete_ok hw (fun _ => hv) hb)

/-- A command whose body fails records the failure. -/
theorem exec_fails {i : Instr} {s : State} {k : ErrCode} {body : Except ErrCode State} (hexec : exec i s = complete i s body)
    (hw : i.wellFormed = true) (hf : needsField i = true → s.status.cfgValid = true) (hb : body = .error k) :
    FailsWith i s k := by
  rw [FailsWith, hexec, complete_error hw hf hb, fail_eq_failureRecord]

/-- A check that fails ends the body. -/
theorem check_fails {α : Type} {c : Bool} {k : ErrCode} {f : Unit → Except ErrCode α} (h : c = false) :
    (require c k >>= f) = .error k := by
  rw [h]
  rfl

/-- A check that passes leaves the rest of the body. -/
theorem check_passes {α : Type} {c : Bool} {k : ErrCode} {f : Unit → Except ErrCode α} (h : c = true) :
    (require c k >>= f) = f () := by
  rw [h]
  rfl

/-! ## SUPINIT -/

theorem exec_supinit {s : State} (hv : s.status.cfgValid = true) (hN : s.LengthOk) :
    exec .supinit s = .next (s.setSupFirst (List.range s.codeLength)).finish :=
  exec_completes rfl rfl hv (check_passes ((checkN_iff s).2 hN))

theorem checkN_eq_false {s : State} (hN : ¬ s.LengthOk) : checkN s = false :=
  Bool.eq_false_iff.2 fun h => hN ((checkN_iff s).1 h)

/-- The support after a load of its first entries (40_system.md R116). -/
theorem read_setSupFirst (s : State) (vs : List Nat) (i : Nat) :
    Memory.read (s.setSupFirst vs).sup i = if i < vs.length then element s.caps (vs.getD i 0) else Memory.read s.sup i := by
  simp only [Memory.read, State.setSupFirst, List.getD_eq_getElem?_getD, norm_entry]
  split
  · rename_i h
    simp [List.getElem?_append_left, h]
  · rename_i h
    rw [List.getElem?_append_right (by simpa using h), List.getElem?_drop, List.length_map]
    congr 2
    omega

/-- Settles O35: entry `i < N ≤ 2^m ≤ 2^MMAX` is stored as `i`. -/
theorem supinitLoadsIdentity : Obligations.SupinitLoadsIdentity := by
  rintro s ⟨hinv, hv⟩
  refine ⟨fun hN => ⟨_, exec_supinit hv hN, rfl, fun i => ?_⟩, fun hN => ?_⟩
  · have hread := read_setSupFirst s (List.range s.codeLength) i
    rw [List.length_range] at hread
    refine hread.trans ?_
    by_cases hi : i < s.cfgN.toNat
    · obtain ⟨-, hn, -⟩ := hN
      have hnmax := hinv.1.2.2.1.2.1
      have hlt : i < s.codeLength := hi
      rw [if_pos hi, if_pos hlt, List.getD_eq_getElem?_getD, List.getElem?_range hlt]
      exact element_of_lt (show i < 2 ^ s.caps.mmax by omega)
    · rw [if_neg hi, if_neg (show ¬ i < s.codeLength from hi)]
  · exact exec_fails rfl rfl (fun _ => hv) (check_fails (checkN_eq_false hN))

/-! ## Ranges -/

theorem allInF_iff (F : Gf) (vs : List Nat) : allInF F vs = true ↔ ∀ v ∈ vs, v < 2 ^ F.m := by simp [allInF, inF]

theorem allInF_eq_false {s : State} {A : Poly} (h : ¬ s.PolyInField A) : allInF s.field A = false :=
  Bool.eq_false_iff.2 fun h' => h ((allInF_iff _ _).1 h')

theorem inF_eq_false {F : Gf} {v : Nat} (h : 2 ^ F.m ≤ v) : inF F v = false := by simp [inF, h]

theorem inF_iff (F : Gf) (v : Nat) : inF F v = true ↔ v < 2 ^ F.m := by simp [inF]

/-- Entry `j` of the support in use. -/
theorem support_getElem (s : State) {j : Nat} (hj : j < s.cfgN.toNat) :
    s.support[j]'(by rwa [support_length]) = Memory.read s.sup j := by
  simp only [State.support, Memory.firstEntries, Memory.read, List.getElem_take, List.getD_eq_getElem?_getD]
  by_cases h : j < s.sup.length
  · rw [List.getElem_append_left h, List.getElem?_eq_getElem h]
    rfl
  · rw [List.getElem_append_right (by omega), List.getElem_replicate, List.getElem?_eq_none (by omega)]
    rfl

/-- A property of every entry of the support in use. -/
theorem forall_mem_support (s : State) (q : Nat → Prop) :
    (∀ α ∈ s.support, q α) ↔ ∀ j, j < s.cfgN.toNat → q (Memory.read s.sup j) := by
  constructor
  · intro h j hj
    rw [← support_getElem s hj]
    exact h _ (List.getElem_mem _)
  · intro h α hα
    obtain ⟨j, hj, rfl⟩ := List.getElem_of_mem hα
    rw [support_length] at hj
    rw [support_getElem s hj]
    exact h j hj

theorem allInF_support_iff (s : State) : allInF s.field s.support = true ↔ s.SupportInField := by
  rw [allInF_iff, forall_mem_support s fun α => α < 2 ^ s.field.m]

theorem allInF_support_eq_false {s : State} (h : ¬ s.SupportInField) : allInF s.field s.support = false :=
  Bool.eq_false_iff.2 fun h' => h ((allInF_support_iff s).1 h')

/-- Settles O45: in each body the range check is the first, in PROOTS after the check of N. -/
theorem polynomialOperandsOutOfRange : Obligations.PolynomialOperandsOutOfRange := by
  rintro s a b c d x y k ⟨-, hv⟩
  have hvalid {i : Instr} : needsField i = true → s.status.cfgValid = true := fun _ => hv
  refine ⟨fun hab hc => ?_, fun hy => ?_, fun hN hrange => ?_, fun hN => ?_⟩
  · have hf := allInF_eq_false hc
    have hl : (allInF s.field s.p[c] && allInF s.field s.p[d]) = false := by rw [hf, Bool.false_and]
    have hr : (allInF s.field s.p[d] && allInF s.field s.p[c]) = false := by rw [hf, Bool.and_false]
    have hne : (a != b) = true := by simpa using hab
    exact ⟨exec_fails rfl rfl hvalid (check_fails hl), exec_fails rfl rfl hvalid (check_fails hr),
      exec_fails rfl rfl hvalid (check_fails hl), exec_fails rfl rfl hvalid (check_fails hr),
      exec_fails rfl hne hvalid (check_fails hl), exec_fails rfl hne hvalid (check_fails hr),
      exec_fails rfl rfl hvalid (check_fails hl), exec_fails rfl rfl hvalid (check_fails hr),
      exec_fails rfl rfl hvalid (check_fails hl), exec_fails rfl rfl hvalid (check_fails hr),
      exec_fails rfl hne hvalid (check_fails hf),
      exec_fails rfl rfl hvalid (check_fails hl), exec_fails rfl rfl hvalid (check_fails hr),
      exec_fails rfl rfl hvalid (check_fails hf), exec_fails rfl rfl hvalid (check_fails hf)⟩
  · refine exec_fails rfl rfl hvalid ?_
    by_cases hc : allInF s.field s.p[c] = true
    · rw [check_passes hc]
      exact check_fails (inF_eq_false hy)
    · exact check_fails (Bool.eq_false_iff.2 hc)
  · refine exec_fails rfl rfl hvalid ?_
    rw [check_passes ((checkN_iff s).2 hN)]
    by_cases hc : allInF s.field s.p[c] = true
    · rw [check_passes hc]
      exact check_fails (allInF_support_eq_false (hrange.resolve_left (not_not_intro ((allInF_iff _ _).1 hc))))
    · exact check_fails (Bool.eq_false_iff.2 hc)
  · exact exec_fails rfl rfl hvalid (check_fails (checkN_eq_false hN))

/-! ## Shapes of matrices -/

/-- Settles O47: each failure is the first check of the command that does not pass. -/
theorem matrixShapeFailures : Obligations.MatrixShapeFailures := by
  intro s a b c A B
  have hbeq {m n : Nat} (h : m ≠ n) : (m == n) = false := beq_false_of_ne h
  have hle {m n : Nat} (h : n < m) : decide (m ≤ n) = false := decide_eq_false (Nat.not_le.2 h)
  refine ⟨fun h => exec_fails rfl rfl nofun (check_fails (hbeq h)), fun h => ?_, fun h => ?_,
    fun h => exec_fails rfl rfl nofun (check_fails (hbeq h)), fun h1 h2 => ?_,
    fun h => exec_fails rfl rfl nofun (check_fails (hle h)), fun h => exec_fails rfl rfl nofun (check_fails (hle h)),
    fun h => ⟨exec_fails rfl rfl nofun (check_fails (hbeq h)), exec_fails rfl rfl nofun (check_fails (hbeq h))⟩⟩
  · refine exec_fails rfl rfl nofun (check_fails (Bool.and_eq_false_iff.2 ?_))
    exact h.imp hbeq hbeq
  · refine exec_fails rfl rfl nofun (check_fails (Bool.and_eq_false_iff.2 ?_))
    exact h.imp hle hle
  · refine exec_fails rfl rfl nofun ?_
    rw [check_passes (beq_iff_eq.2 h1)]
    exact check_fails (hle h2)

/-! ## The checks of the Goppa unit -/

theorem isReceived_iff (s : State) (r : Mat) : isReceived s r = true ↔ s.Received r := by
  simp only [isReceived, Bool.and_eq_true, beq_iff_eq]
  rfl

theorem isReceived_eq_false {s : State} {r : Mat} (h : ¬ s.Received r) : isReceived s r = false :=
  Bool.eq_false_iff.2 fun h' => h ((isReceived_iff s r).1 h')

theorem supportValid_iff (s : State) (g : Poly) :
    supportValid s g = true ↔ ∀ j, j < s.cfgN.toNat → peval s.field g (Memory.read s.sup j) ≠ 0 := by
  rw [← forall_mem_support s fun α => peval s.field g α ≠ 0]
  simp [supportValid]

/-- `GoppaPre` passes exactly for a Goppa polynomial (44_goppa.md R210). -/
theorem goppaPre_ok {s : State} {g : Poly} (h : s.GoppaOk g) : goppaPre s g = .ok () := by
  obtain ⟨hg, hsup, hdeg, hroot⟩ := h
  rw [goppaPre, check_passes ((allInF_iff _ _).2 hg), check_passes ((allInF_support_iff s).2 hsup),
    check_passes (decide_eq_true hdeg), (supportValid_iff s g).2 hroot]
  rfl

/-- How `GoppaPre` refuses (44_goppa.md R210): the ranges, then the degree, then a root in the support. -/
def GoppaRefused (s : State) (g : Poly) (k : ErrCode) : Prop :=
  (k = .operandRange ∧ ¬ (s.PolyInField g ∧ s.SupportInField)) ∨
  (k = .goppaDegree ∧ s.PolyInField g ∧ s.SupportInField ∧ deg g < 1) ∨
  (k = .badSupport ∧ s.PolyInField g ∧ s.SupportInField ∧ 1 ≤ deg g ∧
    ∃ j, j < s.cfgN.toNat ∧ peval s.field g (Memory.read s.sup j) = 0)

theorem goppaPre_error {s : State} {g : Poly} {k : ErrCode} (h : GoppaRefused s g k) : goppaPre s g = .error k := by
  obtain ⟨rfl, h⟩ | ⟨rfl, hg, hsup, hdeg⟩ | ⟨rfl, hg, hsup, hdeg, j, hj, hroot⟩ := h
  · by_cases hg : allInF s.field g = true
    · rw [goppaPre, check_passes hg]
      exact check_fails (allInF_support_eq_false fun hsup => h ⟨(allInF_iff _ _).1 hg, hsup⟩)
    · exact check_fails (Bool.eq_false_iff.2 hg)
  · rw [goppaPre, check_passes ((allInF_iff _ _).2 hg), check_passes ((allInF_support_iff s).2 hsup)]
    exact check_fails (decide_eq_false (by omega))
  · have hbad : supportValid s g = false := Bool.eq_false_iff.2 fun h' => (supportValid_iff s g).1 h' j hj hroot
    rw [goppaPre, check_passes ((allInF_iff _ _).2 hg), check_passes ((allInF_support_iff s).2 hsup),
      check_passes (decide_eq_true hdeg), hbad]
    rfl

/-- Settles O60: the bodies make their checks in this order. -/
theorem goppaChecksInOrder : Obligations.GoppaChecksInOrder := by
  intro s a b c p d e hv hae refused
  have hne : (a != e) = true := by simpa using hae
  have hvalid {i : Instr} : needsField i = true → s.status.cfgValid = true := fun _ => hv
  have hcols (hd : s.m[d].cols = s.cfgN.toNat) : (s.m[d].cols == s.codeLength) = true := beq_iff_eq.2 hd
  have hpre : ∀ k, refused k → goppaPre s s.p[c] = .error k := fun k => goppaPre_error
  refine ⟨fun hN => ?_, fun hN k hk => ?_, fun hN hr => ?_, fun hN hr => ⟨fun k hk => ⟨?_, ?_⟩, fun hd => ?_, fun hd hcap => ?_,
    fun hd hcap k hk => ?_⟩⟩
  · have hN := checkN_eq_false hN
    exact ⟨exec_fails rfl rfl hvalid (check_fails hN), exec_fails rfl rfl hvalid (check_fails hN),
      exec_fails rfl rfl hvalid (check_fails hN), exec_fails rfl hne hvalid (check_fails hN)⟩
  · refine exec_fails rfl rfl hvalid ?_
    rw [check_passes ((checkN_iff s).2 hN), hpre k hk]
    rfl
  · have hN := (checkN_iff s).2 hN
    have hr := isReceived_eq_false hr
    refine ⟨exec_fails rfl rfl hvalid ?_, exec_fails rfl rfl hvalid ?_, exec_fails rfl hne hvalid ?_⟩ <;>
      exact (check_passes hN).trans (check_fails hr)
  · refine exec_fails rfl rfl hvalid ?_
    rw [check_passes ((checkN_iff s).2 hN), check_passes ((isReceived_iff _ _).2 hr), hpre k hk]
    rfl
  · refine exec_fails rfl rfl hvalid ?_
    rw [check_passes ((checkN_iff s).2 hN), check_passes ((isReceived_iff _ _).2 hr), hpre k hk]
    rfl
  · refine exec_fails rfl hne hvalid ?_
    rw [check_passes ((checkN_iff s).2 hN), check_passes ((isReceived_iff _ _).2 hr)]
    exact check_fails (beq_false_of_ne hd)
  · refine exec_fails rfl hne hvalid ?_
    rw [check_passes ((checkN_iff s).2 hN), check_passes ((isReceived_iff _ _).2 hr), check_passes (hcols hd)]
    exact check_fails (decide_eq_false (Nat.not_le.2 hcap))
  · refine exec_fails rfl hne hvalid ?_
    rw [check_passes ((checkN_iff s).2 hN), check_passes ((isReceived_iff _ _).2 hr), check_passes (hcols hd),
      check_passes (decide_eq_true hcap), hpre k hk]
    rfl

end Sys2Proof.Machine
end

section
/-! PROOFS. Integers as binary polynomials (00_scope.md R10): products and remainders (41_field.md R132), and the irreducibility test
of CONFIG (40_system.md R114). -/

namespace Sys2Proof.Machine

open scoped Polynomial

/-- The binary polynomial whose coefficient of `z^i` is bit `i` (00_scope.md R10). -/
noncomputable def binPoly (n : Nat) : (ZMod 2)[X] :=
  ∑ i ∈ Finset.range n, if n.testBit i then Polynomial.X ^ i else 0

theorem coeff_binPoly (n i : Nat) : (binPoly n).coeff i = if n.testBit i then 1 else 0 := by
  have hterm (j : Nat) : (if n.testBit j then (Polynomial.X : (ZMod 2)[X]) ^ j else 0).coeff i =
      if j = i then (if n.testBit i then 1 else 0) else 0 := by
    by_cases hj : j = i
    · subst hj
      split <;> simp
    · split <;> simp [Polynomial.coeff_X_pow, Ne.symm hj]
  rw [binPoly, Polynomial.finsetSum_coeff, Finset.sum_congr rfl fun j _ => hterm j, Finset.sum_ite_eq']
  split
  · rfl
  · rename_i hi
    have hle : n ≤ i := by simpa using hi
    rw [Nat.testBit_lt_two_pow (hle.trans_lt Nat.lt_two_pow_self)]
    simp

theorem binPoly_injective {a b : Nat} (h : binPoly a = binPoly b) : a = b := by
  apply Nat.eq_of_testBit_eq
  intro i
  have := congrArg (fun p => p.coeff i) h
  simp only [coeff_binPoly] at this
  cases ha : a.testBit i <;> cases hb : b.testBit i <;> simp [ha, hb] at this ⊢

@[simp] theorem binPoly_zero : binPoly 0 = 0 := by simp [binPoly]

@[simp] theorem binPoly_one : binPoly 1 = 1 := by simp [binPoly]

theorem binPoly_eq_zero_iff (n : Nat) : binPoly n = 0 ↔ n = 0 :=
  ⟨fun h => binPoly_injective (by rw [h, binPoly_zero]), fun h => by rw [h, binPoly_zero]⟩

theorem binPoly_xor (a b : Nat) : binPoly (a ^^^ b) = binPoly a + binPoly b := by
  ext i
  rw [Polynomial.coeff_add, coeff_binPoly, coeff_binPoly, coeff_binPoly, Nat.testBit_xor]
  cases a.testBit i <;> cases b.testBit i <;> decide

theorem binPoly_shiftLeft (a k : Nat) : binPoly (a <<< k) = binPoly a * Polynomial.X ^ k := by
  ext i
  rw [Polynomial.coeff_mul_X_pow', coeff_binPoly, coeff_binPoly, Nat.testBit_shiftLeft]
  by_cases h : k ≤ i <;> simp [h]

/-- Every binary polynomial is the one of an integer. -/
theorem binPoly_surjective (p : (ZMod 2)[X]) : ∃ n, binPoly n = p := by
  induction p using Polynomial.induction_on' with
  | add p q hp hq =>
    obtain ⟨a, rfl⟩ := hp
    obtain ⟨b, rfl⟩ := hq
    exact ⟨a ^^^ b, binPoly_xor a b⟩
  | monomial k c =>
    obtain rfl | rfl : c = 0 ∨ c = 1 := by revert c; decide
    · exact ⟨0, by simp⟩
    · refine ⟨1 <<< k, ?_⟩
      rw [binPoly_shiftLeft, binPoly_one, one_mul, Polynomial.X_pow_eq_monomial]

/-- The degree of a binary polynomial is below `k` exactly for an integer below `2^k`. -/
theorem degree_binPoly_lt_iff (n k : Nat) : (binPoly n).degree < k ↔ n < 2 ^ k := by
  rw [Polynomial.degree_lt_iff_coeff_zero]
  constructor
  · intro h
    refine Nat.lt_pow_two_of_testBit n fun i hi => ?_
    have := h i hi
    rw [coeff_binPoly] at this
    by_contra hne
    simp [hne] at this
  · intro h i hi
    rw [coeff_binPoly, Nat.testBit_lt_two_pow (lt_of_lt_of_le h (Nat.pow_le_pow_right (by decide) hi))]
    simp

/-- `deg2` of the rules is the degree (00_scope.md R10). -/
theorem natDegree_binPoly {n : Nat} (h : n ≠ 0) : (binPoly n).natDegree = n.log2 := by
  apply Polynomial.natDegree_eq_of_le_of_coeff_ne_zero
  · refine Polynomial.natDegree_le_iff_degree_le.2 (Order.le_of_lt_succ ?_)
    exact (degree_binPoly_lt_iff n (n.log2 + 1)).2 Nat.lt_log2_self
  · rw [coeff_binPoly, Nat.testBit_log2 h]
    simp

theorem monic_binPoly {n : Nat} (h : n ≠ 0) : (binPoly n).Monic := by
  rw [Polynomial.Monic, Polynomial.leadingCoeff, natDegree_binPoly h, coeff_binPoly, Nat.testBit_log2 h]
  rfl

/-! ## The product (41_field.md R132) -/

/-- The product by the low `m` bits of the second factor. -/
theorem binPoly_clmul_mod (m a b : Nat) : binPoly (clmul m a b) = binPoly a * binPoly (b % 2 ^ m) := by
  unfold clmul
  induction m with
  | zero => simp [Nat.mod_one]
  | succ m ih =>
    have hlow : b % 2 ^ (m + 1) = (b % 2 ^ m) ^^^ (if b.testBit m then 1 <<< m else 0) := by
      apply Nat.eq_of_testBit_eq
      intro i
      rw [Nat.testBit_xor, Nat.testBit_mod_two_pow, Nat.testBit_mod_two_pow]
      obtain hi | rfl | hi := lt_trichotomy i m
      · have : ¬ m ≤ i := by omega
        split <;> simp [hi, Nat.lt_succ_of_lt hi, this]
      · cases b.testBit i <;> simp
      · have h1 : ¬ i < m := by omega
        have h2 : ¬ i < m + 1 := by omega
        have h3 : (1 <<< m : Nat).testBit i = false := by
          rw [Nat.shiftLeft_eq, one_mul]
          exact Nat.testBit_two_pow_of_ne (by omega)
        split <;> simp [h1, h2, h3]
    rw [List.range_succ, List.foldl_append, hlow, binPoly_xor, mul_add, ← ih]
    cases hb : b.testBit m with
    | true => simp [hb, binPoly_xor, binPoly_shiftLeft]
    | false => simp [hb]

theorem binPoly_clmul {m b : Nat} (a : Nat) (h : b < 2 ^ m) : binPoly (clmul m a b) = binPoly a * binPoly b := by
  rw [binPoly_clmul_mod, Nat.mod_eq_of_lt h]

/-! ## The remainder (41_field.md R132) -/

/-- One round of the reduction cancels the highest bit. -/
theorem xor_shift_lt {f x : Nat} (hf : f ≠ 0) (hx : x ≠ 0) (h : f.log2 ≤ x.log2) :
    x ^^^ (f <<< (x.log2 - f.log2)) < 2 ^ x.log2 := by
  refine Nat.lt_pow_two_of_testBit _ fun i hi => ?_
  rw [Nat.testBit_xor, Nat.testBit_shiftLeft]
  obtain rfl | hlt := eq_or_lt_of_le hi
  · rw [Nat.sub_sub_self h, Nat.testBit_log2 hx, Nat.testBit_log2 hf]
    simp
  · have h1 : x.testBit i = false :=
      Nat.testBit_lt_two_pow (lt_of_lt_of_le Nat.lt_log2_self (Nat.pow_le_pow_right (by decide) hlt))
    have h2 : f.testBit (i - (x.log2 - f.log2)) = false :=
      Nat.testBit_lt_two_pow (lt_of_lt_of_le Nat.lt_log2_self (Nat.pow_le_pow_right (by decide) (by omega)))
    rw [h1, h2]
    simp

/-- The reduction ends below `2^m` and changes its operand by a multiple of the modulus. -/
theorem polymod2Loop_spec {f : Nat} (hf : f ≠ 0) (n x : Nat) (hx : x < 2 ^ n) :
    polymod2Loop f.log2 f n x < 2 ^ f.log2 ∧ ∃ q, binPoly x = binPoly f * q + binPoly (polymod2Loop f.log2 f n x) := by
  induction n generalizing x with
  | zero =>
    obtain rfl : x = 0 := by simpa using hx
    exact ⟨Nat.two_pow_pos _, 0, by simp [polymod2Loop]⟩
  | succ n ih =>
    rw [polymod2Loop]
    split
    · rename_i h
      have hlog : x.log2 ≤ n := by
        have := (Nat.log2_lt h.1).2 hx
        omega
      have hlt := xor_shift_lt hf h.1 h.2
      obtain ⟨hr, q, hq⟩ := ih _ (lt_of_lt_of_le hlt (Nat.pow_le_pow_right (by decide) hlog))
      refine ⟨hr, q + Polynomial.X ^ (x.log2 - f.log2), ?_⟩
      rw [binPoly_xor, binPoly_shiftLeft] at hq
      rw [mul_add, add_right_comm, ← hq, add_assoc, CharTwo.add_self_eq_zero, add_zero]
    · rename_i h
      refine ⟨?_, 0, by simp⟩
      by_cases h0 : x = 0
      · rw [h0]
        exact Nat.two_pow_pos _
      · exact (Nat.log2_lt h0).1 (Nat.lt_of_not_le fun hle => h ⟨h0, hle⟩)

theorem polymod2_lt {f : Nat} (hf : f ≠ 0) (x : Nat) : polymod2 f.log2 f x < 2 ^ f.log2 :=
  (polymod2Loop_spec hf _ x Nat.lt_log2_self).1

/-- The reduction is the remainder of the division by the modulus. -/
theorem binPoly_polymod2 {f : Nat} (hf : f ≠ 0) (x : Nat) : binPoly (polymod2 f.log2 f x) = binPoly x %ₘ binPoly f := by
  obtain ⟨hr, q, hq⟩ := polymod2Loop_spec hf _ x Nat.lt_log2_self
  refine ((Polynomial.div_modByMonic_unique q _ (monic_binPoly hf) ⟨(add_comm _ _).trans hq.symm, ?_⟩).2).symm
  rw [Polynomial.degree_eq_natDegree (monic_binPoly hf).ne_zero, natDegree_binPoly hf]
  exact (degree_binPoly_lt_iff _ _).2 hr

/-! ## Irreducible moduli (40_system.md R114) -/

/-- A modulus of degree exactly `mm`. -/
theorem hasDegree2_iff (ff mm : Nat) : hasDegree2 ff mm = true ↔ 2 ^ mm ≤ ff ∧ ff < 2 ^ (mm + 1) := by
  simp only [hasDegree2, Bool.and_eq_true, decide_eq_true_eq]
  constructor
  · exact fun h => ⟨Nat.ge_two_pow_of_testBit h.1, h.2⟩
  · rintro ⟨h1, h2⟩
    refine ⟨?_, h2⟩
    have h0 : ff ≠ 0 := fun h => by simp [h] at h1
    obtain rfl : ff.log2 = mm := (Nat.log2_eq_iff h0).2 ⟨h1, h2⟩
    exact Nat.testBit_log2 h0

theorem log2_of_hasDegree2 {ff mm : Nat} (h : 2 ^ mm ≤ ff ∧ ff < 2 ^ (mm + 1)) : ff ≠ 0 ∧ ff.log2 = mm := by
  have h0 : ff ≠ 0 := fun h' => by simp [h'] at h
  exact ⟨h0, (Nat.log2_eq_iff h0).2 h⟩

theorem one_le_log2_iff {n : Nat} (h : n ≠ 0) : 1 ≤ n.log2 ↔ 2 ≤ n := by simpa using Nat.le_log2 (k := 1) h

theorem isUnit_binPoly_iff {n : Nat} (h : n ≠ 0) : IsUnit (binPoly n) ↔ n.log2 = 0 := by
  rw [← natDegree_binPoly h, Polynomial.isUnit_iff_degree_eq_zero,
    Polynomial.degree_eq_natDegree ((binPoly_eq_zero_iff n).not.2 h)]
  simp

/-- The definition of R114 is irreducibility over GF(2). -/
theorem irreducibleBinary_iff {ff : Nat} (h : 2 ≤ ff) : IrreducibleBinary ff ↔ Irreducible (binPoly ff) := by
  have hclmul (u v : Nat) : binPoly (clmul (v.log2 + 1) u v) = binPoly u * binPoly v := binPoly_clmul u Nat.lt_log2_self
  constructor
  · intro hirr
    refine ⟨fun hu => ?_, fun {a b} hab => ?_⟩
    · have := (isUnit_binPoly_iff (by omega)).1 hu
      have := (one_le_log2_iff (by omega)).2 h
      omega
    · obtain ⟨u, rfl⟩ := binPoly_surjective a
      obtain ⟨v, rfl⟩ := binPoly_surjective b
      have hne : binPoly u * binPoly v ≠ 0 := hab ▸ (binPoly_eq_zero_iff ff).not.2 (by omega)
      have hu0 : u ≠ 0 := fun h0 => hne (by simp [h0])
      have hv0 : v ≠ 0 := fun h0 => hne (by simp [h0])
      rw [isUnit_binPoly_iff hu0, isUnit_binPoly_iff hv0]
      by_contra hcon
      refine hirr ⟨u, v, (one_le_log2_iff hu0).1 (by omega), (one_le_log2_iff hv0).1 (by omega), binPoly_injective ?_⟩
      rw [hclmul, hab]
  · rintro hirr ⟨u, v, hu, hv, huv⟩
    have := hirr.isUnit_or_isUnit (huv ▸ hclmul u v)
    rw [isUnit_binPoly_iff (by omega), isUnit_binPoly_iff (by omega)] at this
    have := (one_le_log2_iff (show u ≠ 0 by omega)).2 hu
    have := (one_le_log2_iff (show v ≠ 0 by omega)).2 hv
    omega

/-- The trial division of CONFIG decides irreducibility (40_system.md R114). -/
theorem irreducibleGF2_iff {ff : Nat} (h : 2 ≤ ff) : irreducibleGF2 ff.log2 ff = true ↔ Irreducible (binPoly ff) := by
  have h0 : ff ≠ 0 := by omega
  have hlog := (one_le_log2_iff h0).2 h
  have hdvd (u : Nat) (hu : u ≠ 0) : polymod2 u.log2 u ff = 0 ↔ binPoly u ∣ binPoly ff := by
    rw [← Polynomial.modByMonic_eq_zero_iff_dvd (monic_binPoly hu), ← binPoly_polymod2 hu, binPoly_eq_zero_iff]
  have hone : binPoly ff ≠ 1 := fun h1 => by
    have := binPoly_injective (h1.trans binPoly_one.symm)
    omega
  rw [(monic_binPoly h0).irreducible_iff_lt_natDegree_lt hone, natDegree_binPoly h0]
  simp only [irreducibleGF2, hlog, decide_true, Bool.true_and, List.all_eq_true, List.mem_range, Bool.or_eq_true,
    decide_eq_true_eq]
  constructor
  · intro hall q hq hdeg
    obtain ⟨u, rfl⟩ := binPoly_surjective q
    have hu : u ≠ 0 := (binPoly_eq_zero_iff u).not.1 hq.ne_zero
    rw [natDegree_binPoly hu, Finset.mem_Ioc] at hdeg
    have hu2 := (one_le_log2_iff hu).1 hdeg.1
    have hlt : u < 2 ^ (ff.log2 / 2 + 1) := (Nat.log2_lt hu).1 (by omega)
    rw [← hdvd u hu]
    exact (hall u hlt).resolve_left (by omega)
  · intro hall u hu
    by_cases hu2 : u < 2
    · exact .inl hu2
    · have hu0 : u ≠ 0 := by omega
      refine .inr fun hz => hall _ (monic_binPoly hu0) ?_ ((hdvd u hu0).1 hz)
      have h1 := (one_le_log2_iff hu0).2 (by omega)
      have h2 := (Nat.log2_lt hu0).2 hu
      rw [natDegree_binPoly hu0, Finset.mem_Ioc]
      omega

/-- What an active field satisfies (10_state.md R30). -/
theorem fieldOk_iff (mmax mm ff : Nat) :
    fieldOk mmax mm ff = true ↔ (1 ≤ mm ∧ mm ≤ mmax) ∧ (2 ^ mm ≤ ff ∧ ff < 2 ^ (mm + 1)) ∧ Irreducible (binPoly ff) := by
  simp only [fieldOk, Bool.and_eq_true, decide_eq_true_eq, hasDegree2_iff, and_assoc]
  refine and_congr_right fun h1 => and_congr_right fun _ => and_congr_right fun hlow => and_congr_right fun hhigh => ?_
  obtain ⟨-, hlog⟩ := log2_of_hasDegree2 ⟨hlow, hhigh⟩
  have h2 : 2 ≤ ff := by
    have : 2 ^ 1 ≤ 2 ^ mm := Nat.pow_le_pow_right (by decide) h1
    omega
  rw [← irreducibleGF2_iff h2, hlog]

/-- Settles O34: the checks of CONFIG are the conditions of R114, by `fieldOk_iff` and `irreducibleBinary_iff`. -/
theorem configChecksTheModulus : Obligations.ConfigChecksTheModulus := by
  intro s good
  have hgood : good ↔ fieldOk s.caps.mmax s.cfgM.toNat s.cfgFmod.toNat = true := by
    rw [fieldOk_iff]
    constructor
    · rintro ⟨h1, h2, hlow, hhigh, hirr⟩
      have : 2 ^ 1 ≤ 2 ^ s.cfgM.toNat := Nat.pow_le_pow_right (by decide) h1
      exact ⟨⟨h1, h2⟩, ⟨hlow, hhigh⟩, (irreducibleBinary_iff (by omega)).1 hirr⟩
    · rintro ⟨⟨h1, h2⟩, ⟨hlow, hhigh⟩, hirr⟩
      have : 2 ^ 1 ≤ 2 ^ s.cfgM.toNat := Nat.pow_le_pow_right (by decide) h1
      exact ⟨h1, h2, hlow, hhigh, (irreducibleBinary_iff (by omega)).2 hirr⟩
  rw [hgood, Bool.not_eq_true]
  constructor
  · intro h
    have hexec : exec .config s = .next (s.setCfgValid true).finish :=
      complete_ok rfl nofun (check_passes h)
    exact ⟨_, hexec, rfl⟩
  · intro h
    refine ⟨exec_fails rfl rfl nofun (check_fails h), fun hinv => ?_⟩
    exact Bool.eq_false_iff.2 fun hv => by simp [hinv.2.2.1 hv] at h

end Sys2Proof.Machine
end

section
/-! PROOFS. The integers below `2^m` with `gadd` and `gmul` are a field (41_field.md R130-R136): a correspondence with an abstract field,
and what the field commands write. -/

namespace Sys2Proof.Machine

open scoped Polynomial

/-- `K` is the field of `F`: `val` reads an integer as an element, one integer below `2^m` for each. -/
structure FieldModel (F : Gf) (K : Type) [Field K] where
  val : Nat → K
  one_le_m : 1 ≤ F.m
  val_inj : ∀ {a b : Nat}, a < 2 ^ F.m → b < 2 ^ F.m → val a = val b → a = b
  val_surj : ∀ x : K, ∃ a, a < 2 ^ F.m ∧ val a = x
  val_zero : val 0 = 0
  val_one : val 1 = 1
  val_xor : ∀ a b : Nat, val (a ^^^ b) = val a + val b
  val_gmul : ∀ a {b : Nat}, b < 2 ^ F.m → val (gmul F a b) = val a * val b
  gmul_lt : ∀ a b : Nat, gmul F a b < 2 ^ F.m

/-- An active field is a field: the binary polynomials modulo an irreducible one (41_field.md R132). -/
theorem exists_fieldModel {F : Gf} {mmax : Nat} (h : fieldOk mmax F.m F.f = true) :
    ∃ (K : Type) (_ : Field K), Nonempty (FieldModel F K) := by
  obtain ⟨⟨hm, -⟩, hdeg, hirr⟩ := (fieldOk_iff _ _ _).1 h
  obtain ⟨hf, hlog⟩ := log2_of_hasDegree2 hdeg
  have hfact : Fact (Irreducible (binPoly F.f)) := ⟨hirr⟩
  have hmod (x : Nat) : binPoly (polymod2 F.m F.f x) = binPoly x %ₘ binPoly F.f := hlog ▸ binPoly_polymod2 hf x
  have hlt (x : Nat) : polymod2 F.m F.f x < 2 ^ F.m := hlog ▸ polymod2_lt hf x
  have hmk (p : (ZMod 2)[X]) : AdjoinRoot.mk (binPoly F.f) (p %ₘ binPoly F.f) = AdjoinRoot.mk (binPoly F.f) p := by
    rw [AdjoinRoot.mk_eq_mk]
    refine ⟨-(p /ₘ binPoly F.f), ?_⟩
    linear_combination Polynomial.modByMonic_add_div p (binPoly F.f)
  refine ⟨AdjoinRoot (binPoly F.f), AdjoinRoot.instField, ⟨{
    val := fun n => AdjoinRoot.mk _ (binPoly n)
    one_le_m := hm
    val_inj := fun {a b} ha hb hab => ?_
    val_surj := fun x => ?_
    val_zero := by rw [binPoly_zero, map_zero]
    val_one := by rw [binPoly_one, map_one]
    val_xor := fun a b => by rw [binPoly_xor, map_add]
    val_gmul := fun a b hb => ?_
    gmul_lt := fun a b => hlt _ }⟩⟩
  · have hlt : a ^^^ b < 2 ^ F.m := Nat.xor_lt_two_pow ha hb
    have hdvd : binPoly F.f ∣ binPoly (a ^^^ b) := by
      rw [← AdjoinRoot.mk_eq_zero, binPoly_xor, map_add, hab, ← map_add, ← binPoly_xor, Nat.xor_self, binPoly_zero,
        map_zero]
    have hdeg : (binPoly (a ^^^ b)).degree < (binPoly F.f).degree := by
      rw [Polynomial.degree_eq_natDegree hirr.ne_zero, natDegree_binPoly hf, hlog]
      exact (degree_binPoly_lt_iff _ _).2 hlt
    have h0 := (binPoly_eq_zero_iff _).1 (Polynomial.eq_zero_of_dvd_of_degree_lt hdvd hdeg)
    exact Nat.xor_eq_zero_iff.1 h0
  · obtain ⟨p, rfl⟩ := AdjoinRoot.mk_surjective x
    obtain ⟨n, rfl⟩ := binPoly_surjective p
    exact ⟨polymod2 F.m F.f n, hlt n, by rw [hmod, hmk]⟩
  · rw [gmul, hmod, hmk, ← map_mul, ← binPoly_clmul a hb]

namespace FieldModel

variable {F : Gf} {K : Type} [Field K] (M : FieldModel F K)
include M

theorem one_lt : 1 < 2 ^ F.m := Nat.one_lt_two_pow (by have := M.one_le_m; omega)

theorem val_eq_zero_iff {a : Nat} (ha : a < 2 ^ F.m) : M.val a = 0 ↔ a = 0 := by
  constructor
  · exact fun h => M.val_inj ha (Nat.two_pow_pos _) (h.trans M.val_zero.symm)
  · rintro rfl
    exact M.val_zero

/-- Addition is its own inverse (41_field.md R131). -/
theorem charTwo : CharP K 2 := by
  refine CharTwo.of_one_ne_zero_of_two_eq_zero one_ne_zero ?_
  rw [← one_add_one_eq_two, ← M.val_one, ← M.val_xor]
  exact M.val_zero

theorem val_bijective : Function.Bijective fun a : Fin (2 ^ F.m) => M.val a := by
  refine ⟨fun a b h => Fin.ext (M.val_inj a.isLt b.isLt h), fun x => ?_⟩
  obtain ⟨a, ha, rfl⟩ := M.val_surj x
  exact ⟨⟨a, ha⟩, rfl⟩

theorem finite : Finite K := Finite.of_surjective _ M.val_bijective.2

/-- The field has `2^m` elements. -/
theorem card : Nat.card K = 2 ^ F.m := by
  rw [← Nat.card_eq_of_bijective _ M.val_bijective, Nat.card_fin]

theorem pow_card (x : K) : x ^ 2 ^ F.m = x := by
  have := M.finite
  have := Fintype.ofFinite K
  rw [← M.card, Nat.card_eq_fintype_card, FiniteField.pow_card]

theorem pow_card_sub_one {x : K} (hx : x ≠ 0) : x ^ (2 ^ F.m - 1) = 1 := by
  have := M.finite
  have := Fintype.ofFinite K
  rw [← M.card, Nat.card_eq_fintype_card, FiniteField.pow_card_sub_one_eq_one x hx]

/-! ## Powers (41_field.md R133-R135) -/

theorem gpowLoop_spec (n acc a e : Nat) (hacc : acc < 2 ^ F.m) (ha : a < 2 ^ F.m) (he : e < 2 ^ n) :
    gpowLoop F n acc a e < 2 ^ F.m ∧ M.val (gpowLoop F n acc a e) = M.val acc * M.val a ^ e := by
  induction n generalizing acc a e with
  | zero =>
    obtain rfl : e = 0 := by simpa using he
    exact ⟨hacc, by simp [gpowLoop]⟩
  | succ n ih =>
    have hsq : M.val a ^ e = M.val a ^ (e % 2) * (M.val a * M.val a) ^ (e / 2) := by
      rw [← pow_two, ← pow_mul, ← pow_add]
      congr 1
      omega
    have hhalf : e / 2 < 2 ^ n := by omega
    rw [gpowLoop, Nat.testBit_zero]
    obtain he0 | he1 := Nat.mod_two_eq_zero_or_one e
    · obtain ⟨hlt, hval⟩ := ih acc (gmul F a a) (e / 2) hacc (M.gmul_lt _ _) hhalf
      simp only [he0, zero_ne_one, decide_false, Bool.false_eq_true, if_false]
      refine ⟨hlt, ?_⟩
      rw [hval, M.val_gmul _ ha, hsq, he0, pow_zero, one_mul]
    · obtain ⟨hlt, hval⟩ := ih (gmul F acc a) (gmul F a a) (e / 2) (M.gmul_lt _ _) (M.gmul_lt _ _) hhalf
      simp only [he1, decide_true, if_true]
      refine ⟨hlt, ?_⟩
      rw [hval, M.val_gmul _ ha, M.val_gmul _ ha, hsq, he1, pow_one, mul_assoc]

theorem gpow_lt {a : Nat} (ha : a < 2 ^ F.m) (e : Nat) : gpow F a e < 2 ^ F.m :=
  (M.gpowLoop_spec _ 1 a e M.one_lt ha Nat.lt_log2_self).1

theorem val_gpow {a : Nat} (ha : a < 2 ^ F.m) (e : Nat) : M.val (gpow F a e) = M.val a ^ e := by
  rw [gpow, (M.gpowLoop_spec _ 1 a e M.one_lt ha Nat.lt_log2_self).2, M.val_one, one_mul]

theorem powByRule_lt (a e : Nat) : powByRule F a e < 2 ^ F.m := by
  cases e with
  | zero => exact M.one_lt
  | succ e => exact M.gmul_lt _ _

theorem val_powByRule {a : Nat} (ha : a < 2 ^ F.m) (e : Nat) : M.val (powByRule F a e) = M.val a ^ e := by
  induction e with
  | zero => rw [powByRule, M.val_one, pow_zero]
  | succ e ih => rw [powByRule, M.val_gmul _ ha, ih, pow_succ]

/-- Square and multiply is the recursion of 41_field.md R134. -/
theorem gpow_eq_powByRule {a : Nat} (ha : a < 2 ^ F.m) (e : Nat) : gpow F a e = powByRule F a e :=
  M.val_inj (M.gpow_lt ha e) (M.powByRule_lt a e) (by rw [M.val_gpow ha, M.val_powByRule ha])

theorem ginv_lt {a : Nat} (ha : a < 2 ^ F.m) : ginv F a < 2 ^ F.m := M.gpow_lt ha _

theorem val_ginv {a : Nat} (ha : a < 2 ^ F.m) : M.val (ginv F a) = (M.val a)⁻¹ ∨ a = 0 := by
  by_cases h0 : a = 0
  · exact .inr h0
  · left
    have hne := (M.val_eq_zero_iff ha).not.2 h0
    have h2 : 2 ≤ 2 ^ F.m := M.one_lt
    rw [ginv, M.val_gpow ha]
    refine eq_inv_of_mul_eq_one_left ?_
    rw [← pow_succ, show 2 ^ F.m - 2 + 1 = 2 ^ F.m - 1 by omega, M.pow_card_sub_one hne]

theorem gmul_ginv {a : Nat} (ha : a < 2 ^ F.m) (h0 : a ≠ 0) : gmul F a (ginv F a) = 1 := by
  refine M.val_inj (M.gmul_lt _ _) M.one_lt ?_
  rw [M.val_gmul _ (M.ginv_lt ha), (M.val_ginv ha).resolve_right h0, M.val_one,
    mul_inv_cancel₀ ((M.val_eq_zero_iff ha).not.2 h0)]

theorem gsqrt_lt {a : Nat} (ha : a < 2 ^ F.m) : gsqrt F a < 2 ^ F.m := M.gpow_lt ha _

/-- The square root of 41_field.md R135. -/
theorem val_gsqrt_sq {a : Nat} (ha : a < 2 ^ F.m) : M.val (gsqrt F a) ^ 2 = M.val a := by
  have hm := M.one_le_m
  rw [gsqrt, M.val_gpow ha, ← pow_mul, ← pow_succ, Nat.sub_add_cancel hm, M.pow_card]

theorem gmul_gsqrt {a : Nat} (ha : a < 2 ^ F.m) : gmul F (gsqrt F a) (gsqrt F a) = a :=
  M.val_inj (M.gmul_lt _ _) ha (by rw [M.val_gmul _ (M.gsqrt_lt ha), ← pow_two, M.val_gsqrt_sq ha])

theorem gmul_comm {a b : Nat} (ha : a < 2 ^ F.m) (hb : b < 2 ^ F.m) : gmul F a b = gmul F b a :=
  M.val_inj (M.gmul_lt _ _) (M.gmul_lt _ _) (by rw [M.val_gmul _ hb, M.val_gmul _ ha, mul_comm])

theorem gmul_assoc (a : Nat) {b c : Nat} (hb : b < 2 ^ F.m) (hc : c < 2 ^ F.m) :
    gmul F (gmul F a b) c = gmul F a (gmul F b c) :=
  M.val_inj (M.gmul_lt _ _) (M.gmul_lt _ _)
    (by rw [M.val_gmul _ hc, M.val_gmul _ hb, M.val_gmul _ (M.gmul_lt _ _), M.val_gmul _ hc, mul_assoc])

theorem gmul_gadd (a : Nat) {b c : Nat} (hb : b < 2 ^ F.m) (hc : c < 2 ^ F.m) :
    gmul F a (gadd b c) = gadd (gmul F a b) (gmul F a c) := by
  have hlt : b ^^^ c < 2 ^ F.m := Nat.xor_lt_two_pow hb hc
  refine M.val_inj (M.gmul_lt _ _) (Nat.xor_lt_two_pow (M.gmul_lt _ _) (M.gmul_lt _ _)) ?_
  rw [gadd, gadd, M.val_gmul _ hlt, M.val_xor, M.val_xor, M.val_gmul _ hb, M.val_gmul _ hc, mul_add]

theorem gmul_one {a : Nat} (ha : a < 2 ^ F.m) : gmul F a 1 = a :=
  M.val_inj (M.gmul_lt _ _) ha (by rw [M.val_gmul _ M.one_lt, M.val_one, mul_one])

end FieldModel

/-- Settles O38: each law is one of the field `K` of a `FieldModel`. -/
theorem fieldLaws : Obligations.FieldLaws := by
  intro F mmax a b c hF ha
  obtain ⟨K, _, ⟨M⟩⟩ := exists_fieldModel hF
  refine ⟨⟨Nat.xor_self a, M.gmul_ginv ha, fun h0 => ?_, M.gmul_one ha, gmul_zero F a⟩, fun hb hc =>
    ⟨M.gmul_lt _ _, M.gmul_comm ha hb, M.gmul_assoc a hb hc, M.gmul_gadd a hb hc⟩⟩
  refine M.val_inj (M.gpow_lt ha _) M.one_lt ?_
  rw [M.val_gpow ha, M.pow_card_sub_one ((M.val_eq_zero_iff ha).not.2 h0), M.val_one]

/-! ## The field commands -/

section
variable {s : State} (hs : s.Configured)
include hs

theorem configured_fieldOk : fieldOk s.caps.mmax s.field.m s.field.f = true := hs.1.2.2.1 hs.2

theorem configured_fieldModel : ∃ (K : Type) (_ : Field K), Nonempty (FieldModel s.field K) :=
  exists_fieldModel (configured_fieldOk hs)

/-- A field element fits an element register. -/
theorem field_le_mmax {v : Nat} (hv : v < 2 ^ s.field.m) : v < 2 ^ s.caps.mmax :=
  hv.trans_le (Nat.pow_le_pow_right (by decide) ((fieldOk_iff _ _ _).1 (configured_fieldOk hs)).1.2)

/-- What a command that writes one field element to `E[a]` leaves. -/
theorem setE_onlyE (a : EReg) {v : Nat} (hv : v < 2 ^ s.field.m) :
    (s.setE a v).finish.e[a] = v ∧ OnlyE a s (s.setE a v).finish := by
  have he : (s.setE a v).finish.e[a] = v := by
    simp only [State.finish, State.setE_e, Fin.getElem_fin, Vector.getElem_set_self]
    exact element_of_lt (field_le_mmax hs hv)
  refine ⟨he, ?_⟩
  unfold OnlyE
  rw [he]
  simp only [OnlyCompletes, State.finish, State.setE, element_of_lt (field_le_mmax hs hv)]

end

/-- Settles O36: FADD stays below `2^m`, and the product of FMUL is the remainder that `polymod2Loop_spec` gives. -/
theorem fieldAddAndMultiply : Obligations.FieldAddAndMultiply := by
  intro s a b c hs x y
  have hv := hs.2
  refine ⟨fun hxy => ?_, fun hxy => ?_⟩
  · have hrange : (inF s.field s.e[b] && inF s.field s.e[c]) = true := by
      rw [Bool.and_eq_true, inF_iff, inF_iff]
      exact hxy
    obtain ⟨hadd, hadd'⟩ := setE_onlyE hs a (Nat.xor_lt_two_pow hxy.1 hxy.2)
    obtain ⟨K, _, ⟨M⟩⟩ := configured_fieldModel hs
    obtain ⟨hmul, hmul'⟩ := setE_onlyE hs a (M.gmul_lt x y)
    refine ⟨⟨_, exec_completes rfl rfl hv (check_passes hrange), hadd, hadd'⟩,
      ⟨_, exec_completes rfl rfl hv (check_passes hrange), hmul', ?_, ?_⟩⟩
    · rw [hmul]
      exact M.gmul_lt x y
    · obtain ⟨-, hdeg, -⟩ := (fieldOk_iff _ _ _).1 (configured_fieldOk hs)
      obtain ⟨hf, hlog⟩ := log2_of_hasDegree2 hdeg
      obtain ⟨-, q, hq⟩ := polymod2Loop_spec hf _ (clmul s.field.m x y) Nat.lt_log2_self
      obtain ⟨q, rfl⟩ := binPoly_surjective q
      refine ⟨q, binPoly_injective ?_⟩
      rw [hmul, binPoly_xor, binPoly_clmul q hdeg.2, hq, gmul, polymod2, hlog, mul_comm]
  · have hrange : (inF s.field s.e[b] && inF s.field s.e[c]) = false := by
      rw [Bool.eq_false_iff, ne_eq, Bool.and_eq_true, inF_iff, inF_iff]
      exact hxy
    exact ⟨exec_fails rfl rfl (fun _ => hv) (check_fails hrange), exec_fails rfl rfl (fun _ => hv) (check_fails hrange)⟩

/-- Settles O37: inverse, power and root are those of the field `K` of a `FieldModel`. -/
theorem fieldInversePowerRoot : Obligations.FieldInversePowerRoot := by
  intro s a b c hs x
  have hv := hs.2
  refine ⟨fun hx => ?_, fun hx => ?_⟩
  · have hrange : inF s.field s.e[b] = true := (inF_iff _ _).2 hx
    obtain ⟨K, _, ⟨M⟩⟩ := configured_fieldModel hs
    refine ⟨fun h0 => ?_, fun h0 => ?_, ?_, ?_⟩
    · obtain ⟨he, honly⟩ := setE_onlyE hs a (M.ginv_lt hx)
      refine ⟨_, exec_completes rfl rfl hv ((check_passes hrange).trans (check_passes (decide_eq_true h0))), honly, ?_, ?_⟩
      · rw [he]
        exact M.ginv_lt hx
      · rw [he]
        exact M.gmul_ginv hx h0
    · exact exec_fails rfl rfl (fun _ => hv) ((check_passes hrange).trans (check_fails (decide_eq_false (not_not_intro h0))))
    · obtain ⟨he, honly⟩ := setE_onlyE hs a (M.gpow_lt hx s.e[c])
      exact ⟨_, exec_completes rfl rfl hv (check_passes hrange), honly, he.trans (M.gpow_eq_powByRule hx _)⟩
    · obtain ⟨he, honly⟩ := setE_onlyE hs a (M.gsqrt_lt hx)
      refine ⟨_, exec_completes rfl rfl hv (check_passes hrange), honly, ?_, ?_⟩
      · rw [he]
        exact M.gsqrt_lt hx
      · rw [he]
        exact M.gmul_gsqrt hx
  · have hrange : inF s.field s.e[b] = false := inF_eq_false hx
    exact ⟨exec_fails rfl rfl (fun _ => hv) (check_fails hrange), exec_fails rfl rfl (fun _ => hv) (check_fails hrange),
      exec_fails rfl rfl (fun _ => hv) (check_fails hrange)⟩

end Sys2Proof.Machine
end

section
/-! PROOFS. Coefficient lists as polynomials over the field `K` of a `FieldModel` (00_scope.md R11): the functions of 42_polynomial.md
R151-R155 are the operations of `K[X]`. -/

namespace Sys2Proof.Machine

open scoped Polynomial

/-! ## Coefficients in the field -/

/-- Every coefficient is a field element (42_polynomial.md R150). -/
def InField (F : Gf) (A : Poly) : Prop := ∀ i, coeff A i < 2 ^ F.m

theorem coeff_lt_of_mem {n : Nat} {A : Poly} (h : ∀ c ∈ A, c < 2 ^ n) (i : Nat) : coeff A i < 2 ^ n := read_lt h i

theorem mem_coeff {A : Poly} {c : Nat} (h : c ∈ A) : ∃ i, coeff A i = c := by
  obtain ⟨i, hi, rfl⟩ := List.getElem_of_mem h
  exact ⟨i, by simp [coeff, hi]⟩

theorem inField_iff {F : Gf} {A : Poly} : InField F A ↔ ∀ c ∈ A, c < 2 ^ F.m := by
  constructor
  · intro h c hc
    obtain ⟨i, rfl⟩ := mem_coeff hc
    exact h i
  · exact coeff_lt_of_mem

theorem allInF_iff_inField {F : Gf} {A : Poly} : allInF F A = true ↔ InField F A := by
  rw [allInF_iff, inField_iff]

theorem inField_nil (F : Gf) : InField F [] := fun i => by simp

theorem inField_norm {F : Gf} {A : Poly} (h : InField F A) : InField F (norm A) := fun i => by
  rw [coeff_norm]
  exact h i

theorem inField_padd {F : Gf} {A B : Poly} (hA : InField F A) (hB : InField F B) : InField F (padd A B) := fun i => by
  rw [coeff_padd]
  exact Nat.xor_lt_two_pow (hA i) (hB i)

theorem inField_pshift {F : Gf} {A : Poly} (s : Nat) (h : InField F A) : InField F (pshift s A) := fun i => by
  rw [coeff_pshift]
  split
  · exact Nat.two_pow_pos _
  · exact h _

theorem coeff_map (f : Nat → Nat) (hf : f 0 = 0) (A : Poly) (i : Nat) : coeff (A.map f) i = f (coeff A i) := by
  simp only [coeff, List.getD_eq_getElem?_getD, List.getElem?_map]
  cases A[i]? <;> simp [hf]

theorem coeff_pscale (F : Gf) (c : Nat) (A : Poly) (i : Nat) : coeff (pscale F c A) i = gmul F c (coeff A i) := by
  rw [pscale, coeff_norm, coeff_map _ (gmul_zero F c)]

/-! ## Degrees -/

theorem isZero_iff (A : Poly) : isZero A = true ↔ norm A = [] := by simp [isZero]

theorem isZero_iff_deg (A : Poly) : isZero A = true ↔ deg A = -1 := by
  rw [isZero_iff, ← List.length_eq_zero_iff, deg]
  omega

theorem neg_one_le_deg (A : Poly) : -1 ≤ deg A := by
  rw [deg]
  omega

theorem deg_lt_iff_coeff {A : Poly} {k : Nat} : deg A < k ↔ ∀ i, k ≤ i → coeff A i = 0 := by
  constructor
  · exact fun h i hi => coeff_of_deg_lt (by omega)
  · intro h
    by_contra hk
    exact coeff_deg_ne_zero (A := A) (by omega) (h _ (by omega))

@[simp] theorem deg_norm (A : Poly) : deg (norm A) = deg A := by simp [deg]

@[simp] theorem deg_nil : deg [] = -1 := rfl

theorem deg_lt_length (A : Poly) : deg A < A.length := by
  have := norm_length_le A
  rw [deg]
  omega

theorem lc_lt {F : Gf} {A : Poly} (hA : InField F A) : lc A < 2 ^ F.m := hA _

/-- A canonical polynomial is 0 only as the empty list. -/
theorem eq_nil_of_deg_lt {A : Poly} (h : Memory.wf A) (hd : deg A < 0) : A = [] := by
  rw [deg_of_wf h] at hd
  exact List.length_eq_zero_iff.1 (by omega)

namespace FieldModel

variable {F : Gf} {K : Type} [Field K] (M : FieldModel F K)
include M

theorem inField_pscale (c : Nat) (A : Poly) : InField F (pscale F c A) := fun i => by
  rw [coeff_pscale]
  exact M.gmul_lt _ _

theorem inField_pmul (A B : Poly) : InField F (pmul F A B) := by
  induction A with
  | nil => exact inField_nil F
  | cons a A ih => exact inField_padd (M.inField_pscale a B) (inField_pshift 1 ih)

theorem inField_one : InField F [1] := inField_iff.2 fun c hc => by
  obtain rfl : c = 1 := by simpa using hc
  exact M.one_lt

theorem inField_polyX : InField F polyX := inField_iff.2 fun c hc => by
  have h2 := M.one_lt
  simp only [polyX, List.mem_cons, List.not_mem_nil, or_false] at hc
  omega

/-! ## The polynomial of a list -/

/-- The polynomial over `K` of a coefficient list. -/
noncomputable def poly (A : Poly) : K[X] :=
  ∑ i ∈ Finset.range A.length, Polynomial.monomial i (M.val (coeff A i))

@[simp] theorem coeff_poly (A : Poly) (i : Nat) : (M.poly A).coeff i = M.val (coeff A i) := by
  rw [poly, Polynomial.finsetSum_coeff]
  simp only [Polynomial.coeff_monomial]
  rw [Finset.sum_ite_eq']
  split
  · rfl
  · rename_i hi
    rw [coeff_of_deg_lt (A := A) (lt_of_lt_of_le (deg_lt_length A) (by simpa using hi)), M.val_zero]

theorem poly_eq_of_coeff {A B : Poly} (h : ∀ i, coeff A i = coeff B i) : M.poly A = M.poly B := by
  ext i
  rw [coeff_poly, coeff_poly, h]

@[simp] theorem poly_nil : M.poly [] = 0 := rfl

@[simp] theorem poly_norm (A : Poly) : M.poly (norm A) = M.poly A := M.poly_eq_of_coeff (coeff_norm A)

theorem poly_cons (a : Nat) (A : Poly) : M.poly (a :: A) = Polynomial.C (M.val a) + Polynomial.X * M.poly A := by
  ext i
  cases i with
  | zero => simp
  | succ i => simp

@[simp] theorem poly_one : M.poly [1] = 1 := by rw [poly_cons, M.val_one]; simp

@[simp] theorem poly_polyX : M.poly polyX = Polynomial.X := by
  rw [polyX, poly_cons, poly_one, M.val_zero]
  simp

@[simp] theorem poly_padd (A B : Poly) : M.poly (padd A B) = M.poly A + M.poly B := by
  ext i
  rw [coeff_poly, coeff_padd, M.val_xor, Polynomial.coeff_add, coeff_poly, coeff_poly]

theorem poly_pscale (c : Nat) {A : Poly} (hA : InField F A) :
    M.poly (pscale F c A) = Polynomial.C (M.val c) * M.poly A := by
  ext i
  rw [coeff_poly, coeff_pscale, M.val_gmul _ (hA i), Polynomial.coeff_C_mul, coeff_poly]

@[simp] theorem poly_pshift (s : Nat) (A : Poly) : M.poly (pshift s A) = Polynomial.X ^ s * M.poly A := by
  ext i
  rw [coeff_poly, coeff_pshift, Polynomial.coeff_X_pow_mul']
  by_cases h : i < s
  · rw [if_pos h, if_neg (by omega), M.val_zero]
  · rw [if_neg h, if_pos (by omega), coeff_poly]

/-- The product of 42_polynomial.md R152. -/
theorem poly_pmul (A : Poly) {B : Poly} (hB : InField F B) : M.poly (pmul F A B) = M.poly A * M.poly B := by
  induction A with
  | nil => simp [pmul]
  | cons a A ih =>
    rw [pmul, poly_padd, poly_pshift, ih, M.poly_pscale a hB, poly_cons]
    ring

theorem poly_injective {A B : Poly} (hA : InField F A) (hB : InField F B) (wA : Memory.wf A) (wB : Memory.wf B)
    (h : M.poly A = M.poly B) : A = B := by
  refine Memory.ext_of_wf wA wB fun i => ?_
  have := congrArg (fun p => p.coeff i) h
  rw [coeff_poly, coeff_poly] at this
  exact M.val_inj (hA i) (hB i) this

/-- Every polynomial over `K` is that of a canonical list. -/
theorem poly_surjective (p : K[X]) : ∃ A, InField F A ∧ Memory.wf A ∧ M.poly A = p := by
  choose g hg using M.val_surj
  have hcoeff (i : Nat) : coeff ((List.range (p.natDegree + 1)).map fun i => g (p.coeff i)) i =
      if i ≤ p.natDegree then g (p.coeff i) else 0 := by
    simp only [coeff, List.getD_eq_getElem?_getD, List.getElem?_map]
    by_cases h : i ≤ p.natDegree
    · rw [if_pos h, List.getElem?_range (by omega)]
      rfl
    · rw [if_neg h, List.getElem?_eq_none (by simp; omega)]
      rfl
  refine ⟨norm ((List.range (p.natDegree + 1)).map fun i => g (p.coeff i)), fun i => ?_, norm_wf _, ?_⟩
  · rw [coeff_norm, hcoeff]
    split
    · exact (hg _).1
    · exact Nat.two_pow_pos _
  · ext i
    rw [poly_norm, coeff_poly, hcoeff]
    split
    · exact (hg _).2
    · rename_i h
      rw [M.val_zero, Polynomial.coeff_eq_zero_of_natDegree_lt (by omega)]

/-! ## Degrees and leading coefficients -/

theorem degree_poly_lt_iff {A : Poly} (hA : InField F A) (k : Nat) : (M.poly A).degree < k ↔ deg A < k := by
  rw [Polynomial.degree_lt_iff_coeff_zero, deg_lt_iff_coeff]
  refine forall_congr' fun i => imp_congr_right fun _ => ?_
  rw [coeff_poly, M.val_eq_zero_iff (hA i)]

theorem poly_eq_zero_iff {A : Poly} (hA : InField F A) : M.poly A = 0 ↔ deg A = -1 := by
  have := M.degree_poly_lt_iff hA 0
  have hd := neg_one_le_deg A
  rw [Polynomial.degree_lt_iff_coeff_zero] at this
  rw [show deg A = -1 ↔ deg A < ((0 : Nat) : Int) by omega, ← this]
  constructor
  · rintro h i -
    rw [h, Polynomial.coeff_zero]
  · intro h
    ext i
    simpa using h i (Nat.zero_le i)

theorem isZero_iff_poly {A : Poly} (hA : InField F A) : isZero A = true ↔ M.poly A = 0 := by
  rw [isZero_iff_deg, M.poly_eq_zero_iff hA]

theorem poly_eq_zero_iff_nil {A : Poly} (hA : InField F A) (wA : Memory.wf A) : M.poly A = 0 ↔ A = [] := by
  constructor
  · intro h
    have := (M.poly_eq_zero_iff hA).1 h
    exact eq_nil_of_deg_lt wA (by omega)
  · rintro rfl
    exact M.poly_nil

/-- The degree of a polynomial other than 0. -/
theorem deg_eq_natDegree {A : Poly} (hA : InField F A) (h : M.poly A ≠ 0) : deg A = (M.poly A).natDegree := by
  have hd : 0 ≤ deg A := by
    have := (M.poly_eq_zero_iff hA).not.1 h
    have := neg_one_le_deg A
    omega
  have h1 : (M.poly A).natDegree < (deg A).toNat + 1 := by
    rw [Polynomial.natDegree_lt_iff_degree_lt h, M.degree_poly_lt_iff hA]
    omega
  have h2 : (deg A).toNat ≤ (M.poly A).natDegree := by
    apply Polynomial.le_natDegree_of_ne_zero
    rw [coeff_poly, Ne, M.val_eq_zero_iff (hA _)]
    exact coeff_deg_ne_zero hd
  omega

theorem natDegree_poly {A : Poly} (hA : InField F A) : (M.poly A).natDegree = (deg A).toNat := by
  by_cases h : M.poly A = 0
  · rw [h, (M.poly_eq_zero_iff hA).1 h]
    rfl
  · rw [M.deg_eq_natDegree hA h]
    rfl

theorem degree_lt_degree_iff {A B : Poly} (hA : InField F A) (hB : InField F B) :
    (M.poly A).degree < (M.poly B).degree ↔ deg A < deg B := by
  by_cases h : M.poly B = 0
  · have := neg_one_le_deg A
    rw [h, Polynomial.degree_zero, (M.poly_eq_zero_iff hB).1 h]
    simp only [not_lt_bot, false_iff]
    omega
  · rw [Polynomial.degree_eq_natDegree h, M.degree_poly_lt_iff hA, M.deg_eq_natDegree hB h]

theorem val_lc {A : Poly} (hA : InField F A) : M.val (lc A) = (M.poly A).leadingCoeff := by
  rw [Polynomial.leadingCoeff, M.natDegree_poly hA, coeff_poly, lc]

/-- Horner's rule evaluates the polynomial (42_polynomial.md R155). -/
theorem val_peval (A : Poly) {v : Nat} (hv : v < 2 ^ F.m) : M.val (peval F A v) = (M.poly A).eval (M.val v) := by
  induction A with
  | nil => simp [peval, M.val_zero]
  | cons a A ih =>
    have hcons : peval F (a :: A) v = gmul F (peval F A v) v ^^^ a := rfl
    rw [hcons, M.val_xor, M.val_gmul _ hv, ih, poly_cons]
    simp only [Polynomial.eval_add, Polynomial.eval_C, Polynomial.eval_mul, Polynomial.eval_X]
    ring

theorem peval_lt {A : Poly} (hA : InField F A) (v : Nat) : peval F A v < 2 ^ F.m := by
  cases A with
  | nil => exact Nat.two_pow_pos _
  | cons a A => exact Nat.xor_lt_two_pow (M.gmul_lt _ _) (by simpa using hA 0)

/-! ## Division (42_polynomial.md R153) -/

/-- One round of the division: the leading terms cancel. -/
theorem pdiv_round {R B : Poly} (hR : InField F R) (hB : InField F B) (hB0 : 0 ≤ deg B) (hle : deg B ≤ deg R) :
    deg (padd R (pshift (deg R - deg B).toNat (pscale F (gmul F (lc R) (ginv F (lc B))) B))) < deg R := by
  have hlcB : lc B ≠ 0 := coeff_deg_ne_zero hB0
  have hvB := (M.val_eq_zero_iff (lc_lt hB)).not.2 hlcB
  have hRne : M.poly R ≠ 0 := (M.poly_eq_zero_iff hR).not.2 (by omega)
  have hBne : M.poly B ≠ 0 := (M.poly_eq_zero_iff hB).not.2 (by omega)
  have hvR : M.val (lc R) ≠ 0 := by
    rw [M.val_lc hR]
    exact Polynomial.leadingCoeff_ne_zero.2 hRne
  set c := gmul F (lc R) (ginv F (lc B)) with hc
  set k := (deg R - deg B).toNat with hk
  have hval : M.val c = M.val (lc R) * (M.val (lc B))⁻¹ := by
    rw [hc, M.val_gmul _ (M.ginv_lt (lc_lt hB)), (M.val_ginv (lc_lt hB)).resolve_right hlcB]
  have hsub := inField_pshift k (M.inField_pscale c B)
  set T := Polynomial.X ^ k * (Polynomial.C (M.val c) * M.poly B) with hT
  have hTlc : T.leadingCoeff = (M.poly R).leadingCoeff := by
    rw [hT, Polynomial.leadingCoeff_mul, Polynomial.leadingCoeff_X_pow, one_mul, Polynomial.leadingCoeff_mul,
      Polynomial.leadingCoeff_C, ← M.val_lc hB, ← M.val_lc hR, hval, mul_assoc, inv_mul_cancel₀ hvB, mul_one]
  have hTne : T ≠ 0 := by
    rw [← Polynomial.leadingCoeff_ne_zero, hTlc]
    exact Polynomial.leadingCoeff_ne_zero.2 hRne
  have hTdeg : T.degree = (M.poly R).degree := by
    have hcne : Polynomial.C (M.val c) ≠ 0 := fun h0 => hTne (by rw [hT, h0, zero_mul, mul_zero])
    rw [Polynomial.degree_eq_natDegree hTne, Polynomial.degree_eq_natDegree hRne, hT,
      Polynomial.natDegree_mul (pow_ne_zero _ Polynomial.X_ne_zero) (mul_ne_zero hcne hBne), Polynomial.natDegree_X_pow,
      Polynomial.natDegree_mul hcne hBne, Polynomial.natDegree_C, M.natDegree_poly hB, M.natDegree_poly hR]
    congr 1
    omega
  rw [← M.degree_lt_degree_iff (inField_padd hR hsub) hR, poly_padd, poly_pshift, M.poly_pscale c hB, ← hT]
  have := M.charTwo
  rw [← CharTwo.sub_eq_add]
  exact Polynomial.degree_sub_lt_left hTdeg.symm hRne hTlc.symm

/-- The loop keeps `Q·B + R`, and ends with a remainder below the divisor. -/
theorem pdivLoop_spec {B : Poly} (hB : InField F B) (hB0 : 0 ≤ deg B) (n : Nat) {Q R : Poly} (hQ : InField F Q)
    (hR : InField F R) (hn : deg R < n) :
    let qr := pdivLoop F B (deg B) (ginv F (lc B)) n Q R
    InField F qr.1 ∧ InField F qr.2 ∧ deg qr.2 < deg B ∧
      M.poly qr.1 * M.poly B + M.poly qr.2 = M.poly Q * M.poly B + M.poly R := by
  induction n generalizing Q R with
  | zero => exact ⟨hQ, hR, show deg R < deg B by omega, rfl⟩
  | succ n ih =>
    rw [pdivLoop]
    split
    · rename_i h
      dsimp only
      set k := (deg R - deg B).toNat with hk
      set c := gmul F (lc R) (ginv F (lc B)) with hc
      have hcl : c < 2 ^ F.m := M.gmul_lt _ _
      have hcF : InField F [c] := inField_iff.2 fun x hx => by
        obtain rfl : x = c := by simpa using hx
        exact hcl
      have hlt : deg (padd R (pshift k (pscale F c B))) < deg R := M.pdiv_round hR hB hB0 h.2
      obtain ⟨h1, h2, h3, h4⟩ := ih (inField_padd hQ (inField_pshift k hcF))
        (inField_padd hR (inField_pshift k (M.inField_pscale c B))) (by omega)
      refine ⟨h1, h2, h3, h4.trans ?_⟩
      rw [poly_padd, poly_pshift, poly_padd, poly_pshift, M.poly_pscale c hB, poly_cons, poly_nil]
      have := M.charTwo
      linear_combination (Polynomial.X ^ k * Polynomial.C (M.val c) * M.poly B) * CharTwo.two_eq_zero (R := K[X])
    · rename_i h
      refine ⟨hQ, hR, ?_, rfl⟩
      change deg R < deg B
      by_contra hge
      refine h ⟨Bool.eq_false_iff.2 fun hz => ?_, by omega⟩
      rw [isZero_iff_deg] at hz
      omega

theorem pdivmod_spec {A B : Poly} (hA : InField F A) (hB : InField F B) (hB0 : 0 ≤ deg B) :
    InField F (pdivmod F A B).1 ∧ InField F (pdivmod F A B).2 ∧ deg (pdivmod F A B).2 < deg B ∧
      M.poly (pdivmod F A B).1 * M.poly B + M.poly (pdivmod F A B).2 = M.poly A := by
  have hlen : deg (norm A) < A.length := by
    rw [deg_norm]
    exact deg_lt_length A
  obtain ⟨h1, h2, h3, h4⟩ := M.pdivLoop_spec hB hB0 A.length (inField_nil F) (inField_norm hA) hlen
  refine ⟨h1, h2, h3, h4.trans ?_⟩
  rw [poly_nil, zero_mul, zero_add, poly_norm]

theorem inField_pmod {A B : Poly} (hA : InField F A) (hB : InField F B) (hB0 : 0 ≤ deg B) : InField F (pmod F A B) :=
  (M.pdivmod_spec hA hB hB0).2.1

theorem deg_pmod_lt {A B : Poly} (hA : InField F A) (hB : InField F B) (hB0 : 0 ≤ deg B) : deg (pmod F A B) < deg B :=
  (M.pdivmod_spec hA hB hB0).2.2.1

/-- The remainder is that of `K[X]` (42_polynomial.md R154). -/
theorem poly_pmod {A B : Poly} (hA : InField F A) (hB : InField F B) (hB0 : 0 ≤ deg B) :
    M.poly (pmod F A B) = M.poly A % M.poly B := by
  obtain ⟨-, h2, h3, h4⟩ := M.pdivmod_spec hA hB hB0
  have hdeg := (M.degree_lt_degree_iff h2 hB).2 h3
  rw [← h4, Polynomial.add_mod, EuclideanDomain.mod_eq_zero.2 (dvd_mul_left _ _), zero_add,
    (Polynomial.mod_eq_self_iff ((M.poly_eq_zero_iff hB).not.2 (by omega))).2 hdeg]
  rfl

end FieldModel

end Sys2Proof.Machine
end

section
/-! PROOFS. Sum, product, division and split of polynomials (42_polynomial.md R151-R163), as the commands write them. -/

namespace Sys2Proof.Machine

open scoped Polynomial

/-! ## Sums of field elements -/

theorem xorSum_succ (n : Nat) (f : Nat → Nat) : xorSum (n + 1) f = xorSum n f ^^^ f n := by
  simp [xorSum, List.range_succ]

theorem xorSum_congr {n : Nat} {f g : Nat → Nat} (h : ∀ i, i < n → f i = g i) : xorSum n f = xorSum n g := by
  induction n with
  | zero => rfl
  | succ n ih => rw [xorSum_succ, xorSum_succ, ih fun i hi => h i (by omega), h n (by omega)]

theorem xorSum_lt {m n : Nat} {f : Nat → Nat} (h : ∀ i, i < n → f i < 2 ^ m) : xorSum n f < 2 ^ m := by
  induction n with
  | zero => exact Nat.two_pow_pos m
  | succ n ih =>
    rw [xorSum_succ]
    exact Nat.xor_lt_two_pow (ih fun i hi => h i (by omega)) (h n (by omega))

/-! ## Even and odd coefficients -/

theorem coeff_evens (A : List Nat) (i : Nat) : coeff (evens A) i = coeff A (2 * i) := by
  induction A using evens.induct generalizing i with
  | case1 => simp [evens]
  | case2 a => cases i <;> simp [evens, Nat.mul_succ]
  | case3 a b rest ih =>
    cases i with
    | zero => simp [evens]
    | succ i => simp [evens, ih, Nat.mul_succ]

theorem coeff_odds (A : List Nat) (i : Nat) : coeff (odds A) i = coeff A (2 * i + 1) := by
  induction A using odds.induct generalizing i with
  | case1 => simp [odds]
  | case2 a => simp [odds]
  | case3 a b rest ih =>
    cases i with
    | zero => simp [odds]
    | succ i => simp [odds, ih, Nat.mul_succ]

/-- The square of a polynomial in characteristic 2, coefficient by coefficient. -/
theorem coeff_sq_of_charTwo {K : Type} [Field K] [CharP K 2] (p : K[X]) (n : Nat) :
    (p ^ 2).coeff n = if 2 ∣ n then p.coeff (n / 2) ^ 2 else 0 := by
  rw [← Polynomial.map_frobenius_expand 2 p, Polynomial.coeff_map, Polynomial.coeff_expand (by decide)]
  split
  · rfl
  · exact map_zero _

namespace FieldModel

variable {F : Gf} {K : Type} [Field K] (M : FieldModel F K)
include M

theorem val_xorSum (n : Nat) (f : Nat → Nat) : M.val (xorSum n f) = ∑ i ∈ Finset.range n, M.val (f i) := by
  induction n with
  | zero => exact M.val_zero
  | succ n ih => rw [xorSum_succ, M.val_xor, ih, Finset.sum_range_succ]

/-- The coefficients of a product (42_polynomial.md R152). -/
theorem coeff_pmul (A : Poly) {B : Poly} (hB : InField F B) (k : Nat) :
    coeff (pmul F A B) k = xorSum (k + 1) fun i => gmul F (coeff A i) (coeff B (k - i)) := by
  refine M.val_inj (M.inField_pmul A B k) (xorSum_lt fun i _ => M.gmul_lt _ _) ?_
  rw [M.val_xorSum, ← coeff_poly, M.poly_pmul A hB, Polynomial.coeff_mul,
    Finset.Nat.sum_antidiagonal_eq_sum_range_succ_mk]
  refine Finset.sum_congr rfl fun i _ => ?_
  rw [M.val_gmul _ (hB _), coeff_poly, coeff_poly]

/-- Degrees add: the field has no zero divisors. -/
theorem deg_pmul {A B : Poly} (hA : InField F A) (hB : InField F B) (hA0 : 0 ≤ deg A) (hB0 : 0 ≤ deg B) :
    deg (pmul F A B) = deg A + deg B := by
  have hAne : M.poly A ≠ 0 := (M.poly_eq_zero_iff hA).not.2 (by omega)
  have hBne : M.poly B ≠ 0 := (M.poly_eq_zero_iff hB).not.2 (by omega)
  have hne : M.poly (pmul F A B) ≠ 0 := M.poly_pmul A hB ▸ mul_ne_zero hAne hBne
  rw [M.deg_eq_natDegree (M.inField_pmul A B) hne, M.poly_pmul A hB, Polynomial.natDegree_mul hAne hBne,
    M.deg_eq_natDegree hA hAne, M.deg_eq_natDegree hB hBne, Nat.cast_add]

/-- The value of a polynomial as the sum of 42_polynomial.md R155. -/
theorem peval_eq_xorSum {A : Poly} (hA : InField F A) {v : Nat} (hv : v < 2 ^ F.m) :
    peval F A v = xorSum A.length fun i => gmul F (coeff A i) (powByRule F v i) := by
  refine M.val_inj (M.peval_lt hA v) (xorSum_lt fun i _ => M.gmul_lt _ _) ?_
  rw [M.val_xorSum, M.val_peval A hv, poly, Polynomial.eval_finsetSum]
  refine Finset.sum_congr rfl fun i _ => ?_
  rw [Polynomial.eval_monomial, M.val_gmul _ (M.powByRule_lt v i), M.val_powByRule hv]

/-- The quotient is that of `K[X]` (42_polynomial.md R153). -/
theorem poly_pdiv {A B : Poly} (hA : InField F A) (hB : InField F B) (hB0 : 0 ≤ deg B) :
    M.poly (pdivmod F A B).1 = M.poly A / M.poly B := by
  have hBne : M.poly B ≠ 0 := (M.poly_eq_zero_iff hB).not.2 (by omega)
  obtain ⟨-, -, -, h⟩ := M.pdivmod_spec hA hB hB0
  have hmod : M.poly (pdivmod F A B).2 = M.poly A % M.poly B := M.poly_pmod hA hB hB0
  refine mul_right_cancel₀ hBne ?_
  rw [hmod] at h
  linear_combination h - EuclideanDomain.div_add_mod (M.poly A) (M.poly B)

theorem deg_pdiv_le {A B : Poly} (hA : InField F A) (hB : InField F B) (hB0 : 0 ≤ deg B) :
    deg (pdivmod F A B).1 ≤ deg A := by
  obtain ⟨hQ, -⟩ := M.pdivmod_spec hA hB hB0
  have hle := Polynomial.degree_div_le (M.poly A) (M.poly B)
  rw [← M.poly_pdiv hA hB hB0, ← not_lt, M.degree_lt_degree_iff hA hQ] at hle
  omega

theorem gsqrt_zero : gsqrt F 0 = 0 := by
  have h := M.val_gsqrt_sq (Nat.two_pow_pos F.m)
  rw [M.val_zero, pow_eq_zero_iff two_ne_zero] at h
  exact (M.val_eq_zero_iff (M.gsqrt_lt (Nat.two_pow_pos F.m))).1 h

/-- The roots that PSPLIT writes (42_polynomial.md R157). -/
theorem coeff_psplit_even (A : Poly) (i : Nat) : coeff (psplit F A).1 i = gsqrt F (coeff A (2 * i)) := by
  rw [psplit, coeff_norm, coeff_map _ M.gsqrt_zero, coeff_evens]

theorem coeff_psplit_odd (A : Poly) (i : Nat) : coeff (psplit F A).2 i = gsqrt F (coeff A (2 * i + 1)) := by
  rw [psplit, coeff_norm, coeff_map _ M.gsqrt_zero, coeff_odds]

theorem inField_psplit {A : Poly} (hA : InField F A) : InField F (psplit F A).1 ∧ InField F (psplit F A).2 := by
  refine ⟨fun i => ?_, fun i => ?_⟩
  · rw [M.coeff_psplit_even]
    exact M.gsqrt_lt (hA _)
  · rw [M.coeff_psplit_odd]
    exact M.gsqrt_lt (hA _)

/-- The operand of a split is `Ev² + x·Od²` (42_polynomial.md R157). -/
theorem poly_psplit {A : Poly} (hA : InField F A) :
    M.poly (psplit F A).1 ^ 2 + Polynomial.X * M.poly (psplit F A).2 ^ 2 = M.poly A := by
  have := M.charTwo
  ext n
  have hX : (Polynomial.X * M.poly (psplit F A).2 ^ 2).coeff n =
      if n = 0 then 0 else (M.poly (psplit F A).2 ^ 2).coeff (n - 1) := by
    cases n <;> simp
  rw [Polynomial.coeff_add, hX, coeff_sq_of_charTwo, coeff_sq_of_charTwo, coeff_poly, coeff_poly, coeff_poly,
    M.coeff_psplit_even, M.coeff_psplit_odd, M.val_gsqrt_sq (hA _), M.val_gsqrt_sq (hA _)]
  obtain ⟨k, rfl | rfl⟩ := Nat.even_or_odd' n
  · by_cases hk : k = 0
    · simp [hk]
    · have h1 : ¬ 2 ∣ 2 * k - 1 := by omega
      have h2 : 2 * k ≠ 0 := by omega
      have h3 : 2 * (2 * k / 2) = 2 * k := by omega
      rw [if_pos (dvd_mul_right 2 k), if_neg h2, if_neg h1, h3, add_zero]
  · have h1 : ¬ 2 ∣ 2 * k + 1 := by omega
    have h2 : 2 ∣ 2 * k + 1 - 1 := by omega
    have h3 : 2 * ((2 * k + 1 - 1) / 2) + 1 = 2 * k + 1 := by omega
    rw [if_neg h1, if_neg (Nat.succ_ne_zero _), if_pos h2, h3, zero_add]

end FieldModel

/-! ## Registers written with polynomials over the field -/

theorem deg_padd_le {A B : Poly} {k : Nat} (hA : deg A < k) (hB : deg B < k) : deg (padd A B) < k := by
  rw [deg_lt_iff_coeff] at hA hB ⊢
  intro i hi
  rw [coeff_padd, hA i hi, hB i hi, Nat.xor_self]

section
variable {s : State} (hs : s.Configured)
include hs

/-- A canonical polynomial over the field of degree below PCAP is stored as it is. -/
theorem storedPoly_of_inField {q : Poly} (hq : InField s.field q) (hw : Memory.wf q) (hd : deg q < s.caps.pcap) :
    storedPoly s.caps q = q := by
  rw [deg_of_wf hw] at hd
  exact storedPoly_of_ok ⟨hw, by omega, fun c hc => field_le_mmax hs (inField_iff.1 hq c hc)⟩

/-- What a command that writes one polynomial to `P[a]` leaves. -/
theorem setP_onlyP (a : PReg) {q : Poly} (hq : InField s.field q) (hw : Memory.wf q) (hd : deg q < s.caps.pcap) :
    (s.setP a q).finish.p[a] = q ∧ OnlyP a s (s.setP a q).finish := by
  have hst := storedPoly_of_inField hs hq hw hd
  have hp : (s.setP a q).finish.p[a] = q := by
    simp only [State.finish, State.setP_p, Fin.getElem_fin, Vector.getElem_set_self, hst]
  refine ⟨hp, ?_⟩
  unfold OnlyP
  rw [hp]
  simp only [OnlyCompletes, State.finish, State.setP, hst]

/-- What a command that writes a polynomial to `P[a]` and another to `P[b]` leaves. -/
theorem setP_setP_onlyPP {a b : PReg} (hab : a ≠ b) {q r : Poly} (hq : InField s.field q) (hqw : Memory.wf q)
    (hqd : deg q < s.caps.pcap) (hr : InField s.field r) (hrw : Memory.wf r) (hrd : deg r < s.caps.pcap) :
    ((s.setP a q).setP b r).finish.p[a] = q ∧ ((s.setP a q).setP b r).finish.p[b] = r ∧
      OnlyPP a b s ((s.setP a q).setP b r).finish := by
  have hq' := storedPoly_of_inField hs hq hqw hqd
  have hr' := storedPoly_of_inField hs hr hrw hrd
  have hne : b.val ≠ a.val := fun h => hab (Fin.ext h.symm)
  have hpa : ((s.setP a q).setP b r).finish.p[a] = q := by
    simp only [State.finish, State.setP_p, State.setP_caps, Fin.getElem_fin]
    rw [Vector.getElem_set_ne _ _ hne, Vector.getElem_set_self, hq']
  have hpb : ((s.setP a q).setP b r).finish.p[b] = r := by
    simp only [State.finish, State.setP_p, State.setP_caps, Fin.getElem_fin, Vector.getElem_set_self, hr']
  refine ⟨hpa, hpb, ?_⟩
  unfold OnlyPP
  rw [hpa, hpb]
  simp only [OnlyCompletes, State.finish, State.setP, hq', hr']

/-- A register's polynomial has degree below PCAP. -/
theorem deg_register_lt (i : PReg) : deg s.p[i] < s.caps.pcap := by
  obtain ⟨-, hlen, -⟩ := inv_polyOk hs.1 i
  have := deg_lt_length s.p[i]
  omega

end

theorem register_wf {s : State} (hs : s.Inv) (i : PReg) : Memory.wf s.p[i] := (inv_polyOk hs i).1

theorem polyInField_iff (s : State) (A : Poly) : s.PolyInField A ↔ InField s.field A := inField_iff.symm

theorem allInF_and {F : Gf} {A B : Poly} (hA : InField F A) (hB : InField F B) : (allInF F A && allInF F B) = true := by
  rw [allInF_iff_inField.2 hA, allInF_iff_inField.2 hB]
  rfl

theorem nonneg_deg_of_ne_nil {A : Poly} (hw : Memory.wf A) (h : A ≠ []) : 0 ≤ deg A := by
  by_contra hd
  exact h (eq_nil_of_deg_lt hw (by omega))

theorem isZero_eq_false {A : Poly} (h : 0 ≤ deg A) : isZero A = false :=
  Bool.eq_false_iff.2 fun hz => by
    rw [isZero_iff_deg] at hz
    omega

/-! ## The statements -/

/-- Settles O39: `coeff_padd`, `coeff_pmul`, and degrees add (`deg_pmul`). -/
theorem polynomialSumAndProduct : Obligations.PolynomialSumAndProduct := by
  intro s a b c hs hb hc fits
  rw [polyInField_iff] at hb hc
  obtain ⟨K, _, ⟨M⟩⟩ := configured_fieldModel hs
  have hrange := allInF_and hb hc
  have hdeg : ¬ (s.p[b] = [] ∨ s.p[c] = []) → deg (pmul s.field s.p[b] s.p[c]) = deg s.p[b] + deg s.p[c] := by
    intro h
    rw [not_or] at h
    exact M.deg_pmul hb hc (nonneg_deg_of_ne_nil (register_wf hs.1 b) h.1) (nonneg_deg_of_ne_nil (register_wf hs.1 c) h.2)
  have hnil : s.p[b] = [] ∨ s.p[c] = [] → pmul s.field s.p[b] s.p[c] = [] := by
    intro h
    refine (M.poly_eq_zero_iff_nil (M.inField_pmul _ _) (pmul_wf _ _ _)).1 ?_
    rw [M.poly_pmul _ hc]
    obtain h | h := h <;> simp [h]
  have hcap := deg_register_lt hs c
  refine ⟨?_, fun hfits => ?_, fun hfits => ?_⟩
  · obtain ⟨hp, honly⟩ := setP_onlyP hs a (inField_padd hb hc) (padd_wf _ _) (deg_padd_le (deg_register_lt hs b) hcap)
    refine ⟨_, exec_completes rfl rfl hs.2 (check_passes hrange), honly, fun i => ?_⟩
    rw [hp, coeff_padd]
  · have hfit : isZero (pmul s.field s.p[b] s.p[c]) = true ∨ deg (pmul s.field s.p[b] s.p[c]) ≤ (s.caps.pcap : Int) - 1 := by
      by_cases h : s.p[b] = [] ∨ s.p[c] = []
      · left
        rw [hnil h]
        rfl
      · right
        rw [hdeg h]
        exact (or_assoc.2 hfits).resolve_left h
    have hlt : deg (pmul s.field s.p[b] s.p[c]) < s.caps.pcap := by
      obtain h | h := hfit
      · rw [isZero_iff_deg] at h
        have := neg_one_le_deg s.p[c]
        omega
      · omega
    obtain ⟨hp, honly⟩ := setP_onlyP hs a (M.inField_pmul _ _) (pmul_wf _ _ _) hlt
    refine ⟨_, exec_completes rfl rfl hs.2 ((check_passes hrange).trans (check_passes ?_)), honly, fun k => ?_⟩
    · simpa using hfit
    · rw [hp, M.coeff_pmul _ hc]
  · have h : ¬ (s.p[b] = [] ∨ s.p[c] = []) := fun h => hfits (or_assoc.1 (.inl h))
    have hgt : ¬ deg (pmul s.field s.p[b] s.p[c]) ≤ (s.caps.pcap : Int) - 1 := by
      rw [hdeg h]
      exact fun hle => hfits (.inr (.inr hle))
    have hz : isZero (pmul s.field s.p[b] s.p[c]) = false := isZero_eq_false (by have := s.caps.pcap; omega)
    refine exec_fails rfl rfl (fun _ => hs.2) ((check_passes hrange).trans (check_fails ?_))
    rw [hz, decide_eq_false hgt]
    rfl

/-- Settles O40: `pdivmod_spec`, and the dividend is canonical. -/
theorem polynomialDivision : Obligations.PolynomialDivision := by
  intro s a b c d hs hc hd hab
  rw [polyInField_iff] at hc hd
  have hrange := allInF_and hc hd
  have hne : (a != b) = true := by simpa using hab
  refine ⟨fun h0 => ?_, fun h0 => ?_⟩
  · obtain ⟨K, _, ⟨M⟩⟩ := configured_fieldModel hs
    have hdeg := nonneg_deg_of_ne_nil (register_wf hs.1 d) h0
    have hz : (!isZero s.p[d]) = true := by rw [isZero_eq_false hdeg]; rfl
    obtain ⟨hQ, hR, hlt, hdiv⟩ := M.pdivmod_spec hc hd hdeg
    obtain ⟨hQw, hRw⟩ := pdivmod_wf s.field s.p[c] s.p[d]
    have hQd := (M.deg_pdiv_le hc hd hdeg).trans_lt (deg_register_lt hs c)
    have hRd := hlt.trans (deg_register_lt hs d)
    have hback : padd (pmul s.field (pdivmod s.field s.p[c] s.p[d]).1 s.p[d]) (pdivmod s.field s.p[c] s.p[d]).2 = s.p[c] := by
      refine M.poly_injective (inField_padd (M.inField_pmul _ _) hR) hc (padd_wf _ _) (register_wf hs.1 c) ?_
      rw [M.poly_padd, M.poly_pmul _ hd, hdiv]
    obtain ⟨hpa, hpb, honly⟩ := setP_setP_onlyPP hs hab hQ hQw hQd hR hRw hRd
    obtain ⟨hp, honly'⟩ := setP_onlyP hs a hR hRw hRd
    refine ⟨⟨_, exec_completes rfl hne hs.2 ((check_passes hrange).trans (check_passes hz)), honly, ?_⟩,
      ⟨_, exec_completes rfl rfl hs.2 ((check_passes hrange).trans (check_passes hz)), honly', ?_⟩⟩
    · rw [hpa, hpb, polyInField_iff, polyInField_iff]
      exact ⟨hQ, hR, hback, hlt⟩
    · have hp' : (s.setP a (pmod s.field s.p[c] s.p[d])).finish.p[a] = (pdivmod s.field s.p[c] s.p[d]).2 := hp
      rw [hp', polyInField_iff]
      exact ⟨hR, hlt, _, allInF_iff_inField.2 hQ, hback⟩
  · have hz : (!isZero s.p[d]) = false := by rw [h0]; rfl
    exact ⟨exec_fails rfl hne (fun _ => hs.2) ((check_passes hrange).trans (check_fails hz)),
      exec_fails rfl rfl (fun _ => hs.2) ((check_passes hrange).trans (check_fails hz))⟩

theorem deg_psplit_lt {F : Gf} {K : Type} [Field K] (M : FieldModel F K) {A : Poly} {k : Nat} (h : deg A < k) :
    deg (psplit F A).1 < k ∧ deg (psplit F A).2 < k := by
  rw [deg_lt_iff_coeff] at h
  rw [deg_lt_iff_coeff, deg_lt_iff_coeff]
  refine ⟨fun i hi => ?_, fun i hi => ?_⟩
  · rw [M.coeff_psplit_even, h _ (by omega), M.gsqrt_zero]
  · rw [M.coeff_psplit_odd, h _ (by omega), M.gsqrt_zero]

/-- Settles O42: `coeff_psplit_even`, `coeff_psplit_odd` and `poly_psplit`. -/
theorem polynomialSplit : Obligations.PolynomialSplit := by
  intro s a b c hs hc hab
  rw [polyInField_iff] at hc
  obtain ⟨K, _, ⟨M⟩⟩ := configured_fieldModel hs
  have hne : (a != b) = true := by simpa using hab
  obtain ⟨hE, hO⟩ := M.inField_psplit hc
  obtain ⟨hEd, hOd⟩ := deg_psplit_lt M (deg_register_lt hs c)
  obtain ⟨hpa, hpb, honly⟩ := setP_setP_onlyPP hs hab hE (norm_wf _) hEd hO (norm_wf _) hOd
  refine ⟨_, exec_completes rfl hne hs.2 (check_passes (allInF_iff_inField.2 hc)), honly, fun i => ?_, fun i => ?_, ?_⟩
  · rw [hpa, M.coeff_psplit_even]
    exact ⟨M.gsqrt_lt (hc _), M.gmul_gsqrt (hc _)⟩
  · rw [hpb, M.coeff_psplit_odd]
    exact ⟨M.gsqrt_lt (hc _), M.gmul_gsqrt (hc _)⟩
  · rw [hpa, hpb]
    refine M.poly_injective (inField_padd (M.inField_pmul _ _) (inField_pshift 1 (M.inField_pmul _ _))) hc (padd_wf _ _)
      (register_wf hs.1 c) ?_
    rw [M.poly_padd, M.poly_pshift, M.poly_pmul _ hE, M.poly_pmul _ hO, pow_one, ← pow_two, ← pow_two, M.poly_psplit hc]

end Sys2Proof.Machine
end

section
/-! PROOFS. The inverse and the square root modulo a polynomial (42_polynomial.md R156, R162, R164). -/

namespace Sys2Proof.Machine

open scoped Polynomial

theorem pmod_wf (F : Gf) (A B : Poly) : Memory.wf (pmod F A B) := (pdivmod_wf F A B).2

theorem psqrtmod_eq (F : Gf) (A : Poly) {G : Poly} (hG1 : 1 ≤ deg G) :
    psqrtmod F A G = .ok (pmod F (padd (psplit F (pmod F A G)).1
      (pmul F (psquareTimes F G (F.m * (deg G).toNat - 1) (pmod F polyX G)) (psplit F (pmod F A G)).2)) G) := by
  rw [psqrtmod, if_neg (by rw [isZero_eq_false (by omega)]; decide), if_neg (by omega)]

theorem mod_eq_mod_iff {K : Type} [Field K] {a b g : K[X]} : a % g = b % g ↔ g ∣ a - b := by
  refine ⟨fun h => ?_, Polynomial.mod_eq_of_dvd_sub⟩
  rw [← EuclideanDomain.mod_eq_zero, Polynomial.sub_mod, h, sub_self]

theorem dvd_mod_sub {K : Type} [Field K] (a g : K[X]) : g ∣ a % g - a :=
  ⟨-(a / g), by linear_combination EuclideanDomain.div_add_mod a g⟩

theorem isCoprime_iff_inverse {K : Type} [Field K] {a g : K[X]} : IsCoprime a g ↔ ∃ w, g ∣ w * a - 1 := by
  constructor
  · rintro ⟨w, v, h⟩
    exact ⟨w, -v, by linear_combination h⟩
  · rintro ⟨w, v, h⟩
    exact ⟨w, -v, by linear_combination h⟩

namespace FieldModel

variable {F : Gf} {K : Type} [Field K] (M : FieldModel F K)
include M

/-- The remainder is congruent to its operand. -/
theorem dvd_pmod_sub {A B : Poly} (hA : InField F A) (hB : InField F B) (hB0 : 0 ≤ deg B) :
    M.poly B ∣ M.poly (pmod F A B) - M.poly A := by
  rw [M.poly_pmod hA hB hB0]
  exact dvd_mod_sub _ _

/-- Remainders are equal lists exactly for congruent operands. -/
theorem pmod_eq_pmod_iff {A B G : Poly} (hA : InField F A) (hB : InField F B) (hG : InField F G) (hG0 : 0 ≤ deg G) :
    pmod F A G = pmod F B G ↔ M.poly G ∣ M.poly A - M.poly B := by
  rw [← mod_eq_mod_iff, ← M.poly_pmod hA hG hG0, ← M.poly_pmod hB hG hG0]
  exact ⟨congrArg _, M.poly_injective (M.inField_pmod hA hG hG0) (M.inField_pmod hB hG hG0) (pmod_wf _ _ _) (pmod_wf _ _ _)⟩

/-- A polynomial below the modulus is its own remainder. -/
theorem pmod_eq_self {A G : Poly} (hA : InField F A) (wA : Memory.wf A) (hG : InField F G) (hlt : deg A < deg G) :
    pmod F A G = A := by
  have hG0 : 0 ≤ deg G := by
    have := neg_one_le_deg A
    omega
  refine M.poly_injective (M.inField_pmod hA hG hG0) hA (pmod_wf _ _ _) wA ?_
  rw [M.poly_pmod hA hG hG0, Polynomial.mod_eq_self_iff ((M.poly_eq_zero_iff hG).not.2 (by omega))]
  exact (M.degree_lt_degree_iff hA hG).2 hlt

/-! ## The extended Euclidean algorithm -/

/-- The last remainder has the common divisors of the first two, and its cofactor is one of the second argument. -/
theorem egcd_spec (n : Nat) {r0 u0 r1 u1 : Poly} (hr0 : InField F r0) (hu0 : InField F u0) (hr1 : InField F r1)
    (hu1 : InField F u1) (hn : deg r1 + 2 ≤ n) :
    let gu := egcd F n r0 u0 r1 u1
    InField F gu.1 ∧ InField F gu.2 ∧ (∀ d, d ∣ M.poly gu.1 ↔ d ∣ M.poly r0 ∧ d ∣ M.poly r1) ∧
      ∀ a g, g ∣ M.poly r0 - M.poly u0 * a → g ∣ M.poly r1 - M.poly u1 * a → g ∣ M.poly gu.1 - M.poly gu.2 * a := by
  induction n generalizing r0 u0 r1 u1 with
  | zero =>
    have := neg_one_le_deg r1
    omega
  | succ n ih =>
    rw [egcd]
    split
    · rename_i hz
      rw [M.isZero_iff_poly hr1] at hz
      exact ⟨hr0, hu0, fun d => by simp [hz], fun a g h _ => h⟩
    · rename_i hz
      rw [isZero_iff_deg] at hz
      have hr1deg : 0 ≤ deg r1 := by
        have := neg_one_le_deg r1
        omega
      obtain ⟨hq, hr2, hlt, hdiv⟩ := M.pdivmod_spec hr0 hr1 hr1deg
      dsimp only
      generalize pdivmod F r0 r1 = qr at hq hr2 hlt hdiv ⊢
      obtain ⟨h1, h2, h3, h4⟩ := ih hr1 hu1 hr2 (inField_padd hu0 (M.inField_pmul qr.1 u1)) (by omega)
      refine ⟨h1, h2, fun d => ?_, fun a g hg0 hg1 => h4 a g hg1 ?_⟩
      · rw [h3 d, ← hdiv]
        constructor
        · exact fun h => ⟨dvd_add (h.1.mul_left _) h.2, h.1⟩
        · exact fun h => ⟨h.2, (dvd_add_right (h.2.mul_left _)).1 h.1⟩
      · rw [M.poly_padd, M.poly_pmul _ hu1]
        have := M.charTwo
        obtain ⟨x, hx⟩ := hg0
        obtain ⟨y, hy⟩ := hg1
        refine ⟨x - M.poly qr.1 * y, ?_⟩
        linear_combination hx - M.poly qr.1 * hy + hdiv - M.poly qr.1 * M.poly u1 * a * CharTwo.two_eq_zero (R := K[X])

/-! ## The inverse (42_polynomial.md R156) -/

theorem poly_of_deg_zero {A : Poly} (hA : InField F A) (h : deg A = 0) : M.poly A = Polynomial.C (M.val (lc A)) := by
  have hd := M.natDegree_poly hA
  rw [h] at hd
  rw [Polynomial.eq_C_of_natDegree_eq_zero hd, coeff_poly, lc, h]
  rfl

theorem pinvmod_spec {A G : Poly} (hA : InField F A) (hG : InField F G) (hG1 : 1 ≤ deg G) :
    (∃ U, pinvmod F A G = .ok U ∧ InField F U ∧ Memory.wf U ∧ deg U < deg G ∧ M.poly G ∣ M.poly U * M.poly A - 1) ∨
    (pinvmod F A G = .error .notInvertible ∧ ¬ IsCoprime (M.poly A) (M.poly G)) := by
  have hG0 : 0 ≤ deg G := by omega
  have hA1 := M.inField_pmod hA hG hG0
  have hA1A := M.dvd_pmod_sub hA hG hG0
  have hz : isZero G = false := isZero_eq_false hG0
  have hd0 : ¬ deg G = 0 := by omega
  rw [pinvmod, if_neg (by simp [hz]), if_neg hd0]
  dsimp only
  generalize pmod F A G = A1 at hA1 hA1A ⊢
  have hlen := deg_lt_length A1
  obtain ⟨hg, hu, hdvd, hcof⟩ := M.egcd_spec (A1.length + 1) (inField_norm hG) (inField_nil F) hA1 M.inField_one
    (by push_cast; omega)
  generalize egcd F (A1.length + 1) (norm G) [] A1 [1] = gu at hg hu hdvd hcof ⊢
  have hmod := hcof (M.poly A1) (M.poly G) (by simp) (by simp)
  split
  · rename_i h0
    have hc : lc gu.1 < 2 ^ F.m := lc_lt hg
    have hcne : lc gu.1 ≠ 0 := coeff_deg_ne_zero (by omega)
    have hvne := (M.val_eq_zero_iff hc).not.2 hcne
    have hS := M.inField_pscale (ginv F (lc gu.1)) gu.2
    refine .inl ⟨_, rfl, M.inField_pmod hS hG hG0, pmod_wf _ _ _, M.deg_pmod_lt hS hG hG0, ?_⟩
    have hUS := M.dvd_pmod_sub hS hG hG0
    rw [M.poly_pscale _ hu, (M.val_ginv hc).resolve_right hcne] at hUS
    rw [M.poly_of_deg_zero hg h0] at hmod
    have hcc : Polynomial.C (M.val (lc gu.1))⁻¹ * Polynomial.C (M.val (lc gu.1)) = 1 := by
      rw [← Polynomial.C_mul, inv_mul_cancel₀ hvne, Polynomial.C_1]
    obtain ⟨x, hx⟩ := hUS
    obtain ⟨y, hy⟩ := hmod
    obtain ⟨z, hz⟩ := hA1A
    refine ⟨x * M.poly A - Polynomial.C (M.val (lc gu.1))⁻¹ * y - Polynomial.C (M.val (lc gu.1))⁻¹ * M.poly gu.2 * z, ?_⟩
    linear_combination M.poly A * hx - Polynomial.C (M.val (lc gu.1))⁻¹ * hy + hcc
      - Polynomial.C (M.val (lc gu.1))⁻¹ * M.poly gu.2 * hz
  · rename_i h0
    refine .inr ⟨rfl, fun hcop => ?_⟩
    obtain ⟨hdG, hdA1⟩ := (hdvd (M.poly gu.1)).1 dvd_rfl
    rw [poly_norm] at hdG
    have hdA : M.poly gu.1 ∣ M.poly A := by
      have := dvd_sub hdA1 (hdG.trans hA1A)
      simpa using this
    have hunit := hcop.isUnit_of_dvd' hdA hdG
    have hne := hunit.ne_zero
    have := M.deg_eq_natDegree hg hne
    rw [Polynomial.natDegree_eq_zero_of_isUnit hunit] at this
    exact h0 this

/-- An inverse in the sense of 42_polynomial.md R156 is one modulo the polynomial of `G`. -/
theorem inverse_iff {U A G : Poly} (hA : InField F A) (hG : InField F G) (hG1 : 1 ≤ deg G) :
    pmod F (pmul F U (pmod F A G)) G = [1] ↔ M.poly G ∣ M.poly U * M.poly A - 1 := by
  have hG0 : 0 ≤ deg G := by omega
  have hA1 := M.inField_pmod hA hG hG0
  have hone : pmod F [1] G = [1] := M.pmod_eq_self M.inField_one (by decide) hG (by simpa [deg, norm, consTrim] using hG1)
  conv_lhs => rw [← hone]
  rw [M.pmod_eq_pmod_iff (M.inField_pmul _ _) M.inField_one hG hG0, M.poly_pmul _ hA1, poly_one]
  obtain ⟨z, hz⟩ := M.dvd_pmod_sub hA hG hG0
  constructor
  · rintro ⟨x, hx⟩
    exact ⟨x - M.poly U * z, by linear_combination hx - M.poly U * hz⟩
  · rintro ⟨x, hx⟩
    exact ⟨x + M.poly U * z, by linear_combination hx + M.poly U * hz⟩

theorem exists_inverse_iff {A G : Poly} (hA : InField F A) (hG : InField F G) (hG1 : 1 ≤ deg G) :
    (∃ U, allInF F U = true ∧ pmod F (pmul F U (pmod F A G)) G = [1]) ↔ IsCoprime (M.poly A) (M.poly G) := by
  rw [isCoprime_iff_inverse]
  constructor
  · rintro ⟨U, -, hU⟩
    exact ⟨M.poly U, (M.inverse_iff hA hG hG1).1 hU⟩
  · rintro ⟨w, hw⟩
    obtain ⟨U, hU, -, rfl⟩ := M.poly_surjective w
    exact ⟨U, allInF_iff_inField.2 hU, (M.inverse_iff hA hG hG1).2 hw⟩

end FieldModel

theorem pinvmod_zero (F : Gf) (A : Poly) : pinvmod F A [] = .error .divZero := rfl

theorem pinvmod_constant (F : Gf) (A : Poly) {G : Poly} (h : deg G = 0) : pinvmod F A G = .ok [] := by
  rw [pinvmod, if_neg (by rw [isZero_eq_false h.ge]; decide), if_pos h]

/-- Settles O41: `pinvmod_spec` decides invertibility, and `inverse_iff` reads the statement's inverse. -/
theorem polynomialInverse : Obligations.PolynomialInverse := by
  intro s a b c hs hb hc A G inverse
  rw [polyInField_iff] at hb hc
  obtain ⟨K, _, ⟨M⟩⟩ := configured_fieldModel hs
  have hrange := check_passes (k := .operandRange) (f := fun _ => pinvmod s.field s.p[b] s.p[c] >>= fun u => pure (s.setP a u))
    (allInF_and hb hc)
  refine ⟨fun hG1 hex => ?_, fun hG1 hex => ?_, fun hG0 => ?_, fun hG => ?_⟩
  · obtain ⟨U, hU, hUF, hUw, hUd, hinv⟩ | ⟨-, hno⟩ := M.pinvmod_spec hb hc hG1
    · obtain ⟨hp, honly⟩ := setP_onlyP hs a hUF hUw (hUd.trans (deg_register_lt hs c))
      refine ⟨_, exec_completes rfl rfl hs.2 (hrange.trans (by rw [hU]; rfl)), honly, ?_⟩
      rw [hp, polyInField_iff]
      exact ⟨hUF, hUd, (M.inverse_iff hb hc hG1).2 hinv⟩
    · exact absurd ((M.exists_inverse_iff hb hc hG1).1 hex) hno
  · obtain ⟨U, -, -, -, -, hinv⟩ | ⟨herr, -⟩ := M.pinvmod_spec hb hc hG1
    · exact absurd ((M.exists_inverse_iff hb hc hG1).2 (isCoprime_iff_inverse.2 ⟨_, hinv⟩)) hex
    · exact exec_fails rfl rfl (fun _ => hs.2) (hrange.trans (by rw [herr]; rfl))
  · have hpcap := hs.1.1.2.1.1
    obtain ⟨hp, honly⟩ := setP_onlyP hs a (inField_nil s.field) (by decide) (by rw [deg_nil]; omega)
    exact ⟨_, exec_completes rfl rfl hs.2 (hrange.trans (by rw [pinvmod_constant _ _ hG0]; rfl)), honly, hp⟩
  · refine exec_fails rfl rfl (fun _ => hs.2) (hrange.trans ?_)
    have hG' : s.p[c] = [] := hG
    rw [hG', pinvmod_zero]
    rfl

/-! ## The square root (42_polynomial.md R164) -/

namespace FieldModel

variable {F : Gf} {K : Type} [Field K] (M : FieldModel F K)
include M

/-- A polynomial over the field is irreducible by the definition of 42_polynomial.md R167 exactly if it is in `K[X]`. -/
theorem irreducibleOver_iff {A : Poly} (hA : InField F A) : IrreducibleOver F A ↔ Irreducible (M.poly A) := by
  have hpos {U : Poly} (hU : InField F U) (hne : M.poly U ≠ 0) : 1 ≤ deg U ↔ ¬ IsUnit (M.poly U) := by
    have hd := M.deg_eq_natDegree hU hne
    rw [Polynomial.isUnit_iff_degree_eq_zero, Polynomial.degree_eq_natDegree hne, Nat.cast_eq_zero]
    omega
  constructor
  · rintro ⟨hdeg, hno⟩
    have hne : M.poly A ≠ 0 := (M.poly_eq_zero_iff hA).not.2 (by omega)
    refine ⟨(hpos hA hne).1 hdeg, fun {u v} huv => ?_⟩
    obtain ⟨U, hU, -, rfl⟩ := M.poly_surjective u
    obtain ⟨V, hV, -, rfl⟩ := M.poly_surjective v
    have hu : M.poly U ≠ 0 := left_ne_zero_of_mul (huv ▸ hne)
    have hv : M.poly V ≠ 0 := right_ne_zero_of_mul (huv ▸ hne)
    by_contra hcon
    rw [not_or] at hcon
    refine hno ⟨U, V, allInF_iff_inField.2 hU, allInF_iff_inField.2 hV, (hpos hU hu).2 hcon.1, (hpos hV hv).2 hcon.2, ?_⟩
    refine M.poly_injective (M.inField_pmul U V) (inField_norm hA) (pmul_wf _ _ _) (norm_wf _) ?_
    rw [M.poly_pmul U hV, poly_norm, huv]
  · intro hirr
    refine ⟨(hpos hA hirr.ne_zero).2 hirr.not_isUnit, ?_⟩
    rintro ⟨U, V, hU, hV, hdU, hdV, huv⟩
    rw [allInF_iff_inField] at hU hV
    have hprod : M.poly A = M.poly U * M.poly V := by rw [← M.poly_pmul U hV, huv, poly_norm]
    have hu : M.poly U ≠ 0 := left_ne_zero_of_mul (hprod ▸ hirr.ne_zero)
    have hv : M.poly V ≠ 0 := right_ne_zero_of_mul (hprod ▸ hirr.ne_zero)
    exact (hirr.isUnit_or_isUnit hprod).elim ((hpos hU hu).1 hdU) ((hpos hV hv).1 hdV)

/-- Squaring `n` times raises to the power `2^n`, up to multiples of the modulus. -/
theorem psquareTimes_spec {G : Poly} (hG : InField F G) (hG0 : 0 ≤ deg G) (n : Nat) {h : Poly} (hh : InField F h) :
    InField F (psquareTimes F G n h) ∧ M.poly G ∣ M.poly (psquareTimes F G n h) - M.poly h ^ 2 ^ n := by
  induction n generalizing h with
  | zero => exact ⟨hh, by simp [psquareTimes]⟩
  | succ n ih =>
    have hsq := M.inField_pmul h h
    obtain ⟨h1, h2⟩ := ih (M.inField_pmod hsq hG hG0)
    refine ⟨h1, ?_⟩
    have h3 := (M.dvd_pmod_sub hsq hG hG0).trans (sub_dvd_pow_sub_pow _ _ (2 ^ n))
    rw [M.poly_pmul h hh] at h3
    have h4 := dvd_add h2 h3
    rw [sub_add_sub_cancel, ← pow_two, ← pow_mul, ← pow_succ'] at h4
    exact h4

/-- For an irreducible polynomial of degree `t`, `x` is its own power `2^(m·t)` (42_polynomial.md R164). -/
theorem dvd_X_pow_sub_X {G : Poly} (hG : InField F G) (hirr : Irreducible (M.poly G)) :
    M.poly G ∣ Polynomial.X ^ 2 ^ (F.m * (deg G).toNat) - Polynomial.X := by
  have := M.finite
  have h := hirr.natDegree_dvd_iff_dvd_X_pow_card_pow_sub_X.1 (dvd_refl _)
  rwa [M.card, M.natDegree_poly hG, ← pow_mul] at h

/-- The value of `psqrtmod`: reduced for every modulus, the square root for an irreducible one. -/
theorem psqrtmod_spec {A G : Poly} (hA : InField F A) (hG : InField F G) (hG1 : 1 ≤ deg G) :
    ∃ U, psqrtmod F A G = .ok U ∧ InField F U ∧ Memory.wf U ∧ deg U < deg G ∧
      (Irreducible (M.poly G) → M.poly G ∣ M.poly U ^ 2 - M.poly A) := by
  have hG0 : 0 ≤ deg G := by omega
  rw [psqrtmod_eq F A hG1]
  have hA1 := M.inField_pmod hA hG hG0
  obtain ⟨hE, hO⟩ := M.inField_psplit hA1
  obtain ⟨hS, hSd⟩ := M.psquareTimes_spec hG hG0 (F.m * (deg G).toNat - 1) (M.inField_pmod M.inField_polyX hG hG0)
  have hsum := inField_padd hE (M.inField_pmul (psquareTimes F G (F.m * (deg G).toNat - 1) (pmod F polyX G))
    (psplit F (pmod F A G)).2)
  refine ⟨_, rfl, M.inField_pmod hsum hG hG0, pmod_wf _ _ _, M.deg_pmod_lt hsum hG hG0, fun hirr => ?_⟩
  have hU := M.dvd_pmod_sub hsum hG hG0
  rw [poly_padd, M.poly_pmul _ hO] at hU
  set sx := M.poly (psquareTimes F G (F.m * (deg G).toNat - 1) (pmod F polyX G))
  have hsx : M.poly G ∣ sx ^ 2 - Polynomial.X := by
    have hexp : 2 ^ (F.m * (deg G).toNat - 1) * 2 = 2 ^ (F.m * (deg G).toNat) := by
      have : 1 ≤ F.m * (deg G).toNat := Nat.mul_pos M.one_le_m (by omega)
      rw [← pow_succ, Nat.sub_add_cancel this]
    have h1 := hSd.trans (sub_dvd_pow_sub_pow _ _ 2)
    have h2 := (M.dvd_pmod_sub M.inField_polyX hG hG0).trans (sub_dvd_pow_sub_pow _ _ (2 ^ (F.m * (deg G).toNat)))
    rw [← pow_mul, hexp] at h1
    rw [poly_polyX] at h2
    have h3 := dvd_add (dvd_add h1 h2) (M.dvd_X_pow_sub_X hG hirr)
    rwa [sub_add_sub_cancel, sub_add_sub_cancel] at h3
  have hsplit := M.poly_psplit hA1
  have := M.charTwo
  obtain ⟨x, hx⟩ := hU.trans (sub_dvd_pow_sub_pow _ _ 2)
  obtain ⟨y, hy⟩ := hsx
  obtain ⟨z, hz⟩ := M.dvd_pmod_sub hA hG hG0
  refine ⟨x + y * M.poly (psplit F (pmod F A G)).2 ^ 2 + z, ?_⟩
  linear_combination hx + M.poly (psplit F (pmod F A G)).2 ^ 2 * hy + hz + hsplit
    + M.poly (psplit F (pmod F A G)).1 * sx * M.poly (psplit F (pmod F A G)).2 * CharTwo.two_eq_zero (R := K[X])

end FieldModel

theorem psqrtmod_constant (F : Gf) (A : Poly) {G : Poly} (h : deg G = 0) : psqrtmod F A G = .ok [] := by
  rw [psqrtmod, if_neg (by rw [isZero_eq_false h.ge]; decide), if_pos h]

/-- Settles O43: `psqrtmod_spec`, and a constant modulus gives 0. -/
theorem polynomialSquareRoot : Obligations.PolynomialSquareRoot := by
  intro s a b c hs hb hc
  rw [polyInField_iff] at hb hc
  obtain ⟨K, _, ⟨M⟩⟩ := configured_fieldModel hs
  have hrange := check_passes (k := .operandRange) (f := fun _ => psqrtmod s.field s.p[b] s.p[c] >>= fun u => pure (s.setP a u))
    (allInF_and hb hc)
  refine ⟨fun hne => ?_, fun h0 => ?_⟩
  · have hdeg := nonneg_deg_of_ne_nil (register_wf hs.1 c) hne
    obtain ⟨U, hU, hUF, hUw, hUd, hroot⟩ : ∃ U, psqrtmod s.field s.p[b] s.p[c] = .ok U ∧ InField s.field U ∧ Memory.wf U ∧
        (deg U < max (deg s.p[c]) 1 ∧ (deg s.p[c] = 0 → U = [])) ∧
        (Irreducible (M.poly s.p[c]) → M.poly s.p[c] ∣ M.poly U ^ 2 - M.poly s.p[b]) := by
      obtain h0 | h1 := eq_or_lt_of_le hdeg
      · refine ⟨[], psqrtmod_constant _ _ h0.symm, inField_nil _, by decide, ⟨by rw [deg_nil]; omega, fun _ => rfl⟩,
          fun hirr => ?_⟩
        have := hirr.natDegree_pos
        rw [M.natDegree_poly hc, ← h0] at this
        exact absurd this (by decide)
      · obtain ⟨U, hU, hUF, hUw, hUd, hroot⟩ := M.psqrtmod_spec hb hc h1
        exact ⟨U, hU, hUF, hUw, ⟨hUd.trans_le (le_max_left _ _), fun h => by omega⟩, hroot⟩
    have hpcap := hs.1.1.2.1.1
    have hdc := deg_register_lt hs c
    obtain ⟨hp, honly⟩ := setP_onlyP hs a hUF hUw (by omega)
    refine ⟨_, exec_completes rfl rfl hs.2 (hrange.trans (by rw [hU]; rfl)), honly, ?_⟩
    rw [hp, polyInField_iff]
    refine ⟨hUF, hU, hUd.1, hUd.2, fun hirr => ?_⟩
    rw [M.pmod_eq_pmod_iff (M.inField_pmul _ _) hb hc hdeg, M.poly_pmul _ hUF, ← pow_two]
    exact hroot ((M.irreducibleOver_iff hc).1 hirr)
  · refine exec_fails rfl rfl (fun _ => hs.2) (hrange.trans ?_)
    rw [h0]
    rfl

end Sys2Proof.Machine
end

section
/-! PROOFS. The irreducibility test, evaluation and roots (42_polynomial.md R155, R165-R167). -/

namespace Sys2Proof.Machine

open scoped Polynomial

/-- The criterion of Ben-Or: `p` is irreducible exactly if `x^(q^i) − x` is prime to it for `i` up to half its degree. -/
theorem irreducible_iff_isCoprime {K : Type} [Field K] [Finite K] {p : K[X]} (hp : 1 ≤ p.natDegree) :
    Irreducible p ↔ ∀ i, 0 < i → i ≤ p.natDegree / 2 → IsCoprime (Polynomial.X ^ Nat.card K ^ i - Polynomial.X) p := by
  constructor
  · intro hirr i hi hle
    refine ((hirr.coprime_iff_not_dvd).2 fun hdvd => ?_).symm
    have := Nat.le_of_dvd hi (hirr.natDegree_dvd_of_dvd_X_pow_card_pow_sub_X hdvd)
    omega
  · intro h
    have hp0 : p ≠ 0 := fun h0 => by simp [h0] at hp
    have hpu : ¬ IsUnit p := fun hu => by
      have := Polynomial.natDegree_eq_zero_of_isUnit hu
      omega
    rw [Polynomial.irreducible_iff_lt_natDegree_lt hp0 hpu]
    intro q hq hdeg hdvd
    rw [Finset.mem_Ioc] at hdeg
    obtain ⟨r, hr, hrq⟩ := Polynomial.exists_irreducible_of_natDegree_pos hdeg.1
    have hrle := Polynomial.natDegree_le_of_dvd hrq hq.ne_zero
    have hcop := h r.natDegree hr.natDegree_pos (by omega)
    have hrX := hr.natDegree_dvd_iff_dvd_X_pow_card_pow_sub_X.1 (dvd_refl _)
    exact hr.not_isUnit (hcop.isUnit_of_dvd' hrX (hrq.trans hdvd))

theorem isCoprime_congr {K : Type} [Field K] {a b p : K[X]} (h : p ∣ a - b) : IsCoprime a p ↔ IsCoprime b p := by
  obtain ⟨z, hz⟩ := h
  rw [show a = b + p * z by linear_combination hz, IsCoprime.add_mul_left_left_iff]

namespace FieldModel

variable {F : Gf} {K : Type} [Field K] (M : FieldModel F K)
include M

/-- A constant greatest common divisor is coprimality. -/
theorem deg_pgcd_eq_zero_iff {A B : Poly} (hA : InField F A) (hB : InField F B) :
    deg (pgcd F A B) = 0 ↔ IsCoprime (M.poly A) (M.poly B) := by
  have hlen := deg_lt_length A
  obtain ⟨hg, -, hdvd, -⟩ := M.egcd_spec (A.length + 1) hB (inField_nil F) (inField_norm hA) M.inField_one
    (by rw [deg_norm]; push_cast; omega)
  rw [poly_norm] at hdvd
  change deg (egcd F (A.length + 1) B [] (norm A) [1]).1 = 0 ↔ _
  generalize (egcd F (A.length + 1) B [] (norm A) [1]).1 = g at hg hdvd ⊢
  have hunit : deg g = 0 ↔ IsUnit (M.poly g) := by
    constructor
    · intro h0
      have hne : M.poly g ≠ 0 := (M.poly_eq_zero_iff hg).not.2 (by omega)
      rw [Polynomial.isUnit_iff_degree_eq_zero, Polynomial.degree_eq_natDegree hne, M.natDegree_poly hg, h0]
      rfl
    · intro hu
      rw [M.deg_eq_natDegree hg hu.ne_zero, Polynomial.natDegree_eq_zero_of_isUnit hu]
      rfl
  rw [hunit, ← isRelPrime_iff_isCoprime]
  constructor
  · exact fun hu d hdA hdB => isUnit_of_dvd_unit ((hdvd d).2 ⟨hdB, hdA⟩) hu
  · intro hrel
    obtain ⟨h1, h2⟩ := (hdvd _).1 (dvd_refl (M.poly g))
    exact hrel h2 h1

/-- The loop of PIRRED from the power `x^(q^j)` on. -/
theorem noFactorLoop_iff {A : Poly} (hA : InField F A) (hA0 : 0 ≤ deg A) (n j : Nat) {h : Poly} (hh : InField F h)
    (hmod : M.poly A ∣ M.poly h - Polynomial.X ^ (2 ^ F.m) ^ j) :
    noFactorLoop F A n h = true ↔
      ∀ i, j < i → i ≤ j + n → IsCoprime (Polynomial.X ^ (2 ^ F.m) ^ i - Polynomial.X) (M.poly A) := by
  induction n generalizing j h with
  | zero => exact ⟨fun _ i h1 h2 => by omega, fun _ => rfl⟩
  | succ n ih =>
    obtain ⟨hh', hsq⟩ := M.psquareTimes_spec hA hA0 F.m hh
    have hmod' : M.poly A ∣ M.poly (psquareTimes F A F.m h) - Polynomial.X ^ (2 ^ F.m) ^ (j + 1) := by
      have := dvd_add hsq (hmod.trans (sub_dvd_pow_sub_pow _ _ (2 ^ F.m)))
      rwa [sub_add_sub_cancel, ← pow_mul, ← pow_succ] at this
    rw [noFactorLoop]
    simp only [Bool.and_eq_true, beq_iff_eq]
    rw [M.deg_pgcd_eq_zero_iff (inField_padd hh' M.inField_polyX) hA, ih (j + 1) hh' hmod', poly_padd, poly_polyX]
    have := M.charTwo
    rw [← CharTwo.sub_eq_add, isCoprime_congr (b := Polynomial.X ^ (2 ^ F.m) ^ (j + 1) - Polynomial.X)
      (by rwa [sub_sub_sub_cancel_right])]
    constructor
    · rintro ⟨h1, h2⟩ i hi hle
      obtain rfl | hlt := eq_or_lt_of_le (Nat.succ_le_of_lt hi)
      · exact h1
      · exact h2 i hlt (by omega)
    · exact fun hall => ⟨hall _ (by omega) (by omega), fun i hi hle => hall i (by omega) (by omega)⟩

/-- PIRRED decides irreducibility (42_polynomial.md R167). -/
theorem pirred_iff {A : Poly} (hA : InField F A) : pirred F A = true ↔ IrreducibleOver F A := by
  rw [M.irreducibleOver_iff hA, pirred, Bool.and_eq_true, decide_eq_true_eq]
  have hnat := M.natDegree_poly hA
  by_cases hdeg : 1 ≤ deg A
  · have := M.finite
    rw [irreducible_iff_isCoprime (by omega), M.card, hnat, M.noFactorLoop_iff hA (by omega) _ 0
      (M.inField_pmod M.inField_polyX hA (by omega)) (by
        rw [pow_zero, pow_one, ← M.poly_polyX]
        exact M.dvd_pmod_sub M.inField_polyX hA (by omega))]
    simp [hdeg]
  · refine iff_of_false (fun h => hdeg h.1) fun hirr => ?_
    have := hirr.natDegree_pos
    omega

end FieldModel

/-! ## Registers written with a matrix -/

/-- What a command that writes a matrix without bits outside its columns to `M[a]` leaves. -/
theorem setM_eq {A : Mat} (s : State) (a : MReg) (h : ∀ r ∈ A.row, r < 2 ^ A.cols) :
    s.setM a A = { s with m := s.m.set a A } := by
  rw [State.setM, Mat.masked_of_lt h]

theorem getElem_set_self_m (s : State) (a : MReg) (A : Mat) : (s.m.set a A)[a] = A := by simp

/-- The bits of a vector. -/
theorem bit_rowVector (bits : List Bool) (j : Nat) : (rowVector bits).bit 0 j = bits.getD j false := by
  rw [← testBit_packBits]
  rfl

theorem rowVector_lt (bits : List Bool) : ∀ r ∈ (rowVector bits).row, r < 2 ^ (rowVector bits).cols := by
  intro r hr
  obtain rfl : r = packBits bits := by simpa [rowVector] using hr
  exact packBits_lt bits

/-- The number of 1 entries, counted by position. -/
theorem countP_range_getD (bits : List Bool) : (List.range bits.length).countP (fun j => bits.getD j false) = countTrue bits := by
  have h : bits = (List.range bits.length).map fun j => bits.getD j false := by
    refine List.ext_getElem (by simp) fun i h1 h2 => ?_
    simp [h1]
  conv_rhs => rw [h, countTrue, List.countP_map]
  congr 1
  funext j
  simp

/-- The bit of position `j` in the root vector (42_polynomial.md R166). -/
theorem rootBits_getD (s : State) (A : Poly) {j : Nat} (hj : j < s.cfgN.toNat) :
    (rootBits s.field A s.support).getD j false = decide (peval s.field A (Memory.read s.sup j) = 0) := by
  rw [← support_getElem s hj, List.getD_eq_getElem?_getD, rootBits, List.getElem?_map,
    List.getElem?_eq_getElem (by rwa [support_length])]
  rfl

theorem countTrue_rootBits_le (s : State) (A : Poly) : countTrue (rootBits s.field A s.support) ≤ s.cfgN.toNat := by
  refine List.countP_le_length.trans ?_
  rw [rootBits_length, support_length]

/-- Settles O44: `peval_eq_xorSum`, the bits of `rootBits`, and `pirred_iff`. -/
theorem polynomialEvaluationRootsIrreducibility : Obligations.PolynomialEvaluationRootsIrreducibility := by
  intro s a b c k hs hb
  rw [polyInField_iff] at hb
  obtain ⟨K, _, ⟨M⟩⟩ := configured_fieldModel hs
  have hrange := allInF_iff_inField.2 hb
  refine ⟨fun hc => ?_, fun hN hsup => ?_, ?_⟩
  · obtain ⟨he, honly⟩ := setE_onlyE hs a (M.peval_lt hb s.e[c])
    exact ⟨_, exec_completes rfl rfl hs.2 ((check_passes hrange).trans (check_passes ((inF_iff _ _).2 hc))), honly,
      he.trans (M.peval_eq_xorSum hb hc)⟩
  · have hlen : (rootBits s.field s.p[b] s.support).length = s.cfgN.toNat := by rw [rootBits_length, support_length]
    have hcount : (countTrue (rootBits s.field s.p[b] s.support)) < 2 ^ 32 :=
      (countTrue_rootBits_le s _).trans_lt s.cfgN.isLt
    have hexec := exec_completes (i := .proots k b) rfl rfl hs.2 ((check_passes ((checkN_iff s).2 hN)).trans
      ((check_passes hrange).trans (check_passes ((allInF_support_iff s).2 hsup))))
    rw [setM_eq s k (rowVector_lt _)] at hexec
    refine ⟨_, hexec, ?_, ?_⟩
    · simp only [OnlyCompletes, State.finish, State.setCount, getElem_set_self_m]
    · simp only [State.finish, State.setCount, getElem_set_self_m, rowVector_rows, rowVector_cols, bit_rowVector, hlen,
        true_and, BitVec.toNat_ofNat, Nat.mod_eq_of_lt hcount]
      refine ⟨fun j hj => rootBits_getD s _ hj, ?_⟩
      rw [← hlen, countP_range_getD]
  · refine ⟨_, exec_completes rfl rfl hs.2 (check_passes hrange), rfl, ?_⟩
    exact M.pirred_iff hb

end Sys2Proof.Machine
end

section
/-! PROOFS. Bits as elements of GF(2) (00_scope.md R12): sums of selected rows, and the matrix commands bit by bit (43_matrix.md
R182-R185). -/

namespace Sys2Proof.Machine

/-! ## Bits in GF(2) -/

/-- A bit as an element of GF(2). -/
def bitOf (b : Bool) : ZMod 2 := if b then 1 else 0

/-- Bit `j` of a packed row as an element of GF(2). -/
def bitZ (x j : Nat) : ZMod 2 := bitOf (x.testBit j)

@[simp] theorem bitOf_false : bitOf false = 0 := rfl

@[simp] theorem bitOf_true : bitOf true = 1 := rfl

theorem bitOf_injective {a b : Bool} (h : bitOf a = bitOf b) : a = b := by
  revert a b
  decide

theorem bitOf_xor (a b : Bool) : bitOf (a ^^ b) = bitOf a + bitOf b := by
  revert a b
  decide

theorem bitOf_and (a b : Bool) : bitOf (a && b) = bitOf a * bitOf b := by
  revert a b
  decide

theorem bitOf_eq_zero_iff (b : Bool) : bitOf b = 0 ↔ b = false := by
  revert b
  decide

@[simp] theorem bitZ_zero (j : Nat) : bitZ 0 j = 0 := by simp [bitZ]

theorem bitZ_xor (x y j : Nat) : bitZ (x ^^^ y) j = bitZ x j + bitZ y j := by
  rw [bitZ, Nat.testBit_xor, bitOf_xor]
  rfl

theorem bitZ_two_pow (i j : Nat) : bitZ (2 ^ i) j = if i = j then 1 else 0 := by
  rw [bitZ, Nat.testBit_two_pow]
  by_cases h : i = j <;> simp [h]

theorem bitZ_eq_iff (x y j : Nat) : bitZ x j = bitZ y j ↔ x.testBit j = y.testBit j :=
  ⟨bitOf_injective, fun h => by rw [bitZ, h]; rfl⟩

theorem bitZ_eq_zero_of_lt {x n j : Nat} (h : x < 2 ^ n) (hj : n ≤ j) : bitZ x j = 0 := by
  rw [bitZ, Nat.testBit_lt_two_pow (h.trans_le (Nat.pow_le_pow_right (by decide) hj))]
  rfl

/-- Packed rows are equal when their bits below the width are. -/
theorem eq_of_bitZ {x y n : Nat} (hx : x < 2 ^ n) (hy : y < 2 ^ n) (h : ∀ j, j < n → bitZ x j = bitZ y j) : x = y := by
  refine Nat.eq_of_testBit_eq fun j => ?_
  by_cases hj : j < n
  · exact (bitZ_eq_iff x y j).1 (h j hj)
  · rw [← bitZ_eq_iff, bitZ_eq_zero_of_lt hx (by omega), bitZ_eq_zero_of_lt hy (by omega)]

theorem xorBits_succ (n : Nat) (f : Nat → Bool) : xorBits (n + 1) f = (xorBits n f ^^ f n) := by
  simp [xorBits, List.range_succ]

/-- The XOR of bits is their sum. -/
theorem bitOf_xorBits (n : Nat) (f : Nat → Bool) : bitOf (xorBits n f) = ∑ k ∈ Finset.range n, bitOf (f k) := by
  induction n with
  | zero => rfl
  | succ n ih => rw [xorBits_succ, bitOf_xor, ih, Finset.sum_range_succ]

/-! ## Sums of selected rows -/

/-- A bit of a sum of selected rows. -/
theorem bitZ_selectRows (u : Nat) (L : List Nat) (j : Nat) :
    bitZ (selectRows u L) j = ∑ k ∈ Finset.range L.length, bitZ u k * bitZ (L.getD k 0) j := by
  induction L generalizing u with
  | nil => simp [selectRows]
  | cons b bs ih =>
    rw [selectRows, bitZ_xor, ih, List.length_cons, Finset.sum_range_succ', add_comm]
    congr 1
    · refine Finset.sum_congr rfl fun k _ => ?_
      rw [List.getD_cons_succ, bitZ, bitZ, Nat.testBit_shiftRight, Nat.add_comm]
      rfl
    · rw [List.getD_cons_zero, bitZ, bitZ]
      cases u.testBit 0 <;> simp [bitZ]

theorem selectRows_lt {L : List Nat} {n : Nat} (h : ∀ x ∈ L, x < 2 ^ n) (u : Nat) : selectRows u L < 2 ^ n := by
  induction L generalizing u with
  | nil => exact Nat.two_pow_pos n
  | cons b bs ih =>
    refine Nat.xor_lt_two_pow ?_ (ih (fun x hx => h x (List.mem_cons_of_mem _ hx)) _)
    split
    · exact h b List.mem_cons_self
    · exact Nat.two_pow_pos n

theorem eq_of_bitZ_all {x y : Nat} (h : ∀ j, bitZ x j = bitZ y j) : x = y :=
  Nat.eq_of_testBit_eq fun j => (bitZ_eq_iff x y j).1 (h j)

theorem selectRows_xor (u w : Nat) (L : List Nat) : selectRows (u ^^^ w) L = selectRows u L ^^^ selectRows w L := by
  refine eq_of_bitZ_all fun j => ?_
  rw [bitZ_xor, bitZ_selectRows, bitZ_selectRows, bitZ_selectRows, ← Finset.sum_add_distrib]
  exact Finset.sum_congr rfl fun k _ => by rw [bitZ_xor, add_mul]

@[simp] theorem selectRows_zero (L : List Nat) : selectRows 0 L = 0 :=
  eq_of_bitZ_all fun j => by simp [bitZ_selectRows]

/-- Selecting one row. -/
theorem selectRows_two_pow {L : List Nat} {i : Nat} (h : i < L.length) : selectRows (2 ^ i) L = L.getD i 0 := by
  refine eq_of_bitZ_all fun j => ?_
  rw [bitZ_selectRows, Finset.sum_eq_single i]
  · rw [bitZ_two_pow, if_pos rfl, one_mul]
  · intro k _ hk
    rw [bitZ_two_pow, if_neg (Ne.symm hk), zero_mul]
  · intro hi
    exact absurd (Finset.mem_range.2 h) hi

/-- Only the low bits select. -/
theorem selectRows_mod (u : Nat) (L : List Nat) : selectRows (u % 2 ^ L.length) L = selectRows u L := by
  refine eq_of_bitZ_all fun j => ?_
  rw [bitZ_selectRows, bitZ_selectRows]
  refine Finset.sum_congr rfl fun k hk => ?_
  rw [bitZ, Nat.testBit_mod_two_pow, decide_eq_true (Finset.mem_range.1 hk), Bool.true_and]
  rfl

/-! ## The matrix functions bit by bit -/

theorem Mat.bitOf_bit (A : Mat) (i j : Nat) : bitOf (A.bit i j) = bitZ (A.rowAt i) j := rfl

theorem rowAt_map (A : Mat) (c : Nat) (f : Nat → Nat) {i : Nat} (hi : i < A.rows) :
    ({ cols := c, row := A.row.map f } : Mat).rowAt i = f (A.rowAt i) := by
  have hi' : i < A.row.length := hi
  simp [Mat.rowAt, hi']

theorem rowAt_zipWith (A B : Mat) (c : Nat) (f : Nat → Nat → Nat) {i : Nat} (hA : i < A.rows) (hB : i < B.rows) :
    ({ cols := c, row := A.row.zipWith f B.row } : Mat).rowAt i = f (A.rowAt i) (B.rowAt i) := by
  have hA' : i < A.row.length := hA
  have hB' : i < B.row.length := hB
  simp [Mat.rowAt, hA', hB']

theorem rowAt_matMul (A B : Mat) {i : Nat} (hi : i < A.rows) : (matMul A B).rowAt i = selectRows (A.rowAt i) B.row :=
  rowAt_map A _ _ hi

/-- The product (43_matrix.md R182). -/
theorem bit_matMul (A B : Mat) (hAB : A.cols = B.rows) {i : Nat} (hi : i < A.rows) (j : Nat) :
    (matMul A B).bit i j = xorBits A.cols fun k => A.bit i k && B.bit k j := by
  apply bitOf_injective
  rw [Mat.bitOf_bit, rowAt_matMul A B hi, bitZ_selectRows, bitOf_xorBits, hAB]
  refine Finset.sum_congr rfl fun k _ => ?_
  rw [bitOf_and]
  rfl

/-- The sum (43_matrix.md R183). -/
theorem bit_matAdd (A B : Mat) {i : Nat} (hA : i < A.rows) (hB : i < B.rows) (j : Nat) :
    (matAdd A B).bit i j = (A.bit i j ^^ B.bit i j) := by
  rw [Mat.bit, matAdd, rowAt_zipWith A B _ _ hA hB, Nat.testBit_xor]
  rfl

/-- The transpose (43_matrix.md R184). -/
theorem bit_matTrans (A : Mat) {j : Nat} (hj : j < A.cols) (i : Nat) : (matTrans A).bit j i = A.bit i j := by
  have hrow : (matTrans A).rowAt j = packBits (A.row.map (·.testBit j)) := by
    simp [matTrans, Mat.rowAt, hj]
  rw [Mat.bit, hrow, testBit_packBits, Mat.bit, Mat.rowAt]
  simp only [List.getD_eq_getElem?_getD, List.getElem?_map]
  cases A.row[i]? <;> simp

/-- The concatenation (43_matrix.md R185). -/
theorem bit_matHcat (A B : Mat) (hlt : ∀ r ∈ A.row, r < 2 ^ A.cols) {i : Nat} (hA : i < A.rows) (hB : i < B.rows) (j : Nat) :
    (matHcat A B).bit i j = if j < A.cols then A.bit i j else B.bit i (j - A.cols) := by
  rw [Mat.bit, matHcat, rowAt_zipWith A B _ _ hA hB, Nat.testBit_or, Nat.testBit_shiftLeft]
  by_cases hj : j < A.cols
  · have : ¬ A.cols ≤ j := by omega
    rw [if_pos hj, decide_eq_false this, Bool.false_and, Bool.or_false]
    rfl
  · have hz : (A.rowAt i).testBit j = false := Mat.bit_of_cols_le hlt i (by omega)
    rw [if_neg hj, hz, Bool.false_or, decide_eq_true (by omega : A.cols ≤ j), Bool.true_and]
    rfl

theorem matMul_lt {A B : Mat} (hB : ∀ r ∈ B.row, r < 2 ^ B.cols) : ∀ r ∈ (matMul A B).row, r < 2 ^ (matMul A B).cols := by
  intro r hr
  obtain ⟨a, -, rfl⟩ := List.mem_map.1 hr
  exact selectRows_lt hB a

/-- A property of every row of a matrix is one of the rows by number. -/
theorem Mat.forall_mem_row {A : Mat} {q : Nat → Prop} (h : ∀ i, i < A.rows → q (A.rowAt i)) : ∀ r ∈ A.row, q r := by
  intro r hr
  obtain ⟨i, hi, rfl⟩ := List.getElem_of_mem hr
  have := h i hi
  rwa [Mat.rowAt, List.getD_eq_getElem?_getD, List.getElem?_eq_getElem hi, Option.getD_some] at this

theorem matAdd_lt {A B : Mat} (hA : ∀ r ∈ A.row, r < 2 ^ A.cols) (hB : ∀ r ∈ B.row, r < 2 ^ B.cols)
    (hc : A.cols = B.cols) : ∀ r ∈ (matAdd A B).row, r < 2 ^ (matAdd A B).cols := by
  refine Mat.forall_mem_row fun i hi => ?_
  rw [matAdd_rows] at hi
  rw [matAdd, rowAt_zipWith A B _ _ (by omega) (by omega)]
  exact Nat.xor_lt_two_pow (A.rowAt_lt hA i) (hc ▸ B.rowAt_lt hB i)

theorem matTrans_lt (A : Mat) : ∀ r ∈ (matTrans A).row, r < 2 ^ (matTrans A).cols := by
  intro r hr
  obtain ⟨j, -, rfl⟩ := List.mem_map.1 hr
  exact (packBits_lt _).trans_eq (by rw [List.length_map]; rfl)

theorem matHcat_lt {A B : Mat} (hA : ∀ r ∈ A.row, r < 2 ^ A.cols) (hB : ∀ r ∈ B.row, r < 2 ^ B.cols) :
    ∀ r ∈ (matHcat A B).row, r < 2 ^ (matHcat A B).cols := by
  refine Mat.forall_mem_row fun i hi => ?_
  rw [matHcat_rows] at hi
  rw [matHcat, rowAt_zipWith A B _ _ (by omega) (by omega)]
  refine Nat.or_lt_two_pow ((A.rowAt_lt hA i).trans_le (Nat.pow_le_pow_right (by decide) (Nat.le_add_right _ _))) ?_
  rw [Nat.shiftLeft_eq, Nat.add_comm, Nat.pow_add]
  exact Nat.mul_lt_mul_of_pos_right (B.rowAt_lt hB i) (Nat.two_pow_pos _)

/-! ## The commands -/

/-- A matrix command without an active field that passes its checks. -/
theorem exec_completes_noField {i : Instr} {s u : State} {body : Except ErrCode State} (hexec : exec i s = complete i s body)
    (hw : i.wellFormed = true) (hf : needsField i = false) (hb : body = .ok u) : exec i s = .next u.finish :=
  hexec.trans (complete_ok hw (by simp [hf]) hb)

/-- What a command that writes one matrix without bits outside its columns leaves. -/
theorem setM_onlyM (s : State) (a : MReg) {A : Mat} (h : ∀ r ∈ A.row, r < 2 ^ A.cols) :
    (s.setM a A).finish.m[a] = A ∧ OnlyM a s (s.setM a A).finish := by
  rw [setM_eq s a h]
  have hm : ({ s with m := s.m.set a A } : State).finish.m[a] = A := getElem_set_self_m s a A
  refine ⟨hm, ?_⟩
  unfold OnlyM
  rw [hm]
  rfl

/-- Settles O46: `bit_matMul`, `bit_matAdd`, `bit_matTrans` and `bit_matHcat`. -/
theorem matrixProductSumTransposeConcatenation : Obligations.MatrixProductSumTransposeConcatenation := by
  intro s a b c hs A B
  obtain ⟨-, -, -, hA⟩ := inv_matOk hs b
  obtain ⟨-, -, -, hB⟩ := inv_matOk hs c
  refine ⟨fun hAB => ?_, fun hr hc => ?_, fun h1 h2 => ?_, fun hr hc => ?_⟩
  · obtain ⟨hm, honly⟩ := setM_onlyM s a (matMul_lt (A := A) hB)
    refine ⟨_, exec_completes_noField rfl rfl rfl (check_passes (beq_iff_eq.2 hAB)), honly, ?_⟩
    rw [hm]
    exact ⟨matMul_rows A B, rfl, fun i j hi _ => bit_matMul A B hAB hi j⟩
  · obtain ⟨hm, honly⟩ := setM_onlyM s a (matAdd_lt hA hB hc)
    refine ⟨_, exec_completes_noField rfl rfl rfl (check_passes ?_), honly, ?_⟩
    · rw [Bool.and_eq_true, beq_iff_eq, beq_iff_eq]
      exact ⟨hr, hc⟩
    · rw [hm]
      exact ⟨(matAdd_rows A B).trans (by omega), rfl, fun i j hi _ => bit_matAdd A B hi (hr ▸ hi) j⟩
  · obtain ⟨hm, honly⟩ := setM_onlyM s a (matTrans_lt A)
    refine ⟨_, exec_completes_noField rfl rfl rfl (check_passes ?_), honly, ?_⟩
    · rw [Bool.and_eq_true, decide_eq_true_eq, decide_eq_true_eq]
      exact ⟨h1, h2⟩
    · rw [hm]
      exact ⟨matTrans_rows A, rfl, fun i j _ hj => bit_matTrans A hj i⟩
  · obtain ⟨hm, honly⟩ := setM_onlyM s a (matHcat_lt hA hB)
    refine ⟨_, exec_completes_noField rfl rfl rfl ((check_passes (beq_iff_eq.2 hr)).trans
      (check_passes (decide_eq_true hc))), honly, ?_⟩
    rw [hm]
    exact ⟨(matHcat_rows A B).trans (by omega), rfl, fun i j hi _ => bit_matHcat A B hA hi (hr ▸ hi) j⟩

end Sys2Proof.Machine
end

section
/-! PROOFS. Elimination (43_matrix.md R181): the reduced form, and the row space it keeps. -/

namespace Sys2Proof.Machine

/-! ## Row spaces -/

/-- `v` is a sum of rows of `L`. -/
def InSpan (L : List Nat) (v : Nat) : Prop := ∃ u, selectRows u L = v

theorem InSpan.zero (L : List Nat) : InSpan L 0 := ⟨0, selectRows_zero L⟩

theorem InSpan.xor {L : List Nat} {v w : Nat} (hv : InSpan L v) (hw : InSpan L w) : InSpan L (v ^^^ w) := by
  obtain ⟨a, rfl⟩ := hv
  obtain ⟨b, rfl⟩ := hw
  exact ⟨a ^^^ b, selectRows_xor a b L⟩

theorem InSpan.row (L : List Nat) (i : Nat) : InSpan L (L.getD i 0) := by
  by_cases h : i < L.length
  · exact ⟨2 ^ i, selectRows_two_pow h⟩
  · rw [List.getD_eq_getElem?_getD, List.getElem?_eq_none (by omega)]
    exact InSpan.zero L

/-- Rows that are sums of rows of `L'` span no more than `L'`. -/
theorem InSpan.mono {L L' : List Nat} (h : ∀ x ∈ L, InSpan L' x) {v : Nat} (hv : InSpan L v) : InSpan L' v := by
  obtain ⟨u, rfl⟩ := hv
  induction L generalizing u with
  | nil => exact InSpan.zero L'
  | cons b bs ih =>
    rw [selectRows]
    refine InSpan.xor ?_ (ih (fun x hx => h x (List.mem_cons_of_mem _ hx)) _)
    split
    · exact h b List.mem_cons_self
    · exact InSpan.zero L'

theorem forall_mem_of_getD {L : List Nat} {q : Nat → Prop} (h : ∀ i, i < L.length → q (L.getD i 0)) : ∀ x ∈ L, q x := by
  intro x hx
  obtain ⟨i, hi, rfl⟩ := List.getElem_of_mem hx
  have := h i hi
  rwa [List.getD_eq_getElem?_getD, List.getElem?_eq_getElem hi, Option.getD_some] at this

/-! ## The two row operations -/

theorem getD_swapRows {R : List Nat} {p i0 : Nat} (hp : p < R.length) (hi0 : i0 < R.length) (i : Nat) :
    (swapRows R p i0).getD i 0 = R.getD (if i = p then i0 else if i = i0 then p else i) 0 := by
  simp only [swapRows, List.getD_eq_getElem?_getD, List.getElem?_set, List.length_set]
  by_cases h1 : i0 = i
  · subst h1
    by_cases h2 : i0 = p <;> simp [h2, hp, hi0]
  · by_cases h2 : p = i
    · subst h2
      simp [h1, hp]
    · simp [h1, h2, Ne.symm h1, Ne.symm h2]

theorem getD_eliminate {R : List Nat} (p col : Nat) {i : Nat} (hi : i < R.length) :
    (eliminate R p col).getD i 0 =
      if i ≠ p ∧ (R.getD i 0).testBit col then R.getD i 0 ^^^ R.getD p 0 else R.getD i 0 := by
  simp [eliminate, hi]

theorem inSpan_swapRows {R : List Nat} {p i0 : Nat} (hp : p < R.length) (hi0 : i0 < R.length) (v : Nat) :
    InSpan (swapRows R p i0) v ↔ InSpan R v := by
  constructor
  · refine InSpan.mono (forall_mem_of_getD fun i _ => ?_)
    rw [getD_swapRows hp hi0]
    exact InSpan.row R _
  · refine InSpan.mono (forall_mem_of_getD fun i _ => ?_)
    have h := InSpan.row (swapRows R p i0) (if i = p then i0 else if i = i0 then p else i)
    rw [getD_swapRows hp hi0] at h
    convert h using 2
    split_ifs <;> omega

theorem inSpan_eliminate {R : List Nat} {p : Nat} (hp : p < R.length) (col v : Nat) :
    InSpan (eliminate R p col) v ↔ InSpan R v := by
  have hrowp : (eliminate R p col).getD p 0 = R.getD p 0 := by
    rw [getD_eliminate p col hp, if_neg (by simp)]
  constructor
  · refine InSpan.mono (forall_mem_of_getD fun i hi => ?_)
    rw [eliminate_length] at hi
    rw [getD_eliminate p col hi]
    split
    · exact (InSpan.row R i).xor (InSpan.row R p)
    · exact InSpan.row R i
  · refine InSpan.mono (forall_mem_of_getD fun i hi => ?_)
    have hi' := InSpan.row (eliminate R p col) i
    have hp' := InSpan.row (eliminate R p col) p
    rw [getD_eliminate p col hi] at hi'
    split at hi'
    · have := hi'.xor hp'
      rwa [hrowp, Nat.xor_assoc, Nat.xor_self, Nat.xor_zero] at this
    · exact hi'

/-- The row operation of one pivot: the pivot row `x` is the row found, and it is added where the column has a 1. -/
theorem getD_pivot {R : List Nat} {p i0 : Nat} (col : Nat) (hp : p < R.length) (hi0 : i0 < R.length) {i : Nat}
    (hi : i < R.length) :
    (eliminate (swapRows R p i0) p col).getD i 0 =
      if i = p then R.getD i0 0
      else if (R.getD (if i = i0 then p else i) 0).testBit col then R.getD (if i = i0 then p else i) 0 ^^^ R.getD i0 0
      else R.getD (if i = i0 then p else i) 0 := by
  rw [getD_eliminate p col (by rwa [swapRows_length]), getD_swapRows hp hi0, getD_swapRows hp hi0, if_pos rfl]
  by_cases h : i = p
  · simp [h]
  · simp only [h, ne_eq, not_false_eq_true, true_and, if_false]

/-- Adding `x` where `y` has its bit `c` clears that bit … -/
theorem testBit_clear_same {x c : Nat} (hx : x.testBit c = true) (y : Nat) :
    (if y.testBit c then y ^^^ x else y).testBit c = false := by
  by_cases hy : y.testBit c
  · rw [if_pos hy, Nat.testBit_xor, hx, hy, Bool.xor_self]
  · rw [if_neg hy]
    exact Bool.eq_false_iff.2 hy

/-- … and keeps the bits where `x` has none. -/
theorem testBit_clear_other {x j : Nat} (hx : x.testBit j = false) (y c : Nat) :
    (if y.testBit c then y ^^^ x else y).testBit j = y.testBit j := by
  split
  · rw [Nat.testBit_xor, hx, Bool.xor_false]
  · rfl

/-! ## The reduced form -/

/-- `R` is reduced in the columns below `c`, with the pivots `piv` (43_matrix.md R181). -/
structure Reduced (R : List Nat) (piv : List Nat) (c : Nat) : Prop where
  rank_le : piv.length ≤ R.length
  sorted : piv.Pairwise (· < ·)
  piv_lt : ∀ p ∈ piv, p < c
  pivot_column : ∀ i j, i < R.length → j < piv.length → (R.getD i 0).testBit (piv.getD j 0) = decide (i = j)
  left_zero : ∀ i j, i < piv.length → j < piv.getD i 0 → (R.getD i 0).testBit j = false
  below_zero : ∀ i j, piv.length ≤ i → i < R.length → j < c → (R.getD i 0).testBit j = false

theorem reduced_start (R : List Nat) : Reduced R [] 0 where
  rank_le := Nat.zero_le _
  sorted := List.Pairwise.nil
  piv_lt := by simp
  pivot_column := by simp
  left_zero := by simp
  below_zero := by simp

/-- With every row a pivot row, the remaining columns change nothing. -/
theorem Reduced.full {R piv : List Nat} {c n : Nat} (h : Reduced R piv c) (hfull : piv.length = R.length) (hc : c ≤ n) :
    Reduced R piv n :=
  { h with
    piv_lt := fun p hp => (h.piv_lt p hp).trans_le hc
    below_zero := fun i j h1 h2 => by omega }

/-- A column without a 1 from the rank on is no pivot column. -/
theorem Reduced.skip {R piv : List Nat} {c : Nat} (h : Reduced R piv c)
    (hnone : ∀ i, piv.length ≤ i → i < R.length → (R.getD i 0).testBit c = false) : Reduced R piv (c + 1) :=
  { h with
    piv_lt := fun p hp => Nat.lt_succ_of_lt (h.piv_lt p hp)
    below_zero := fun i j h1 h2 hj => by
      obtain hj | rfl := Nat.lt_succ_iff_lt_or_eq.1 hj
      · exact h.below_zero i j h1 h2 hj
      · exact hnone i h1 h2 }

theorem getD_append_left {piv : List Nat} {c j : Nat} (h : j < piv.length) : (piv ++ [c]).getD j 0 = piv.getD j 0 := by
  simp [List.getElem?_append_left h]

theorem getD_append_last (piv : List Nat) (c : Nat) : (piv ++ [c]).getD piv.length 0 = c := by simp

theorem getD_piv_lt {piv : List Nat} {c j : Nat} (h : ∀ p ∈ piv, p < c) (hj : j < piv.length) : piv.getD j 0 < c := by
  rw [List.getD_eq_getElem?_getD, List.getElem?_eq_getElem hj]
  exact h _ (List.getElem_mem hj)

/-- The pivot found in column `c` is moved to the rank's row and cleared from the other rows. -/
theorem Reduced.pivot {R piv : List Nat} {c i0 : Nat} (h : Reduced R piv c) (hi0 : i0 < R.length) (hp0 : piv.length ≤ i0)
    (hbit : (R.getD i0 0).testBit c = true) :
    Reduced (eliminate (swapRows R piv.length i0) piv.length c) (piv ++ [c]) (c + 1) := by
  obtain ⟨hle, hsorted, hlt, hcol, hleft, hbelow⟩ := h
  have hp : piv.length < R.length := by omega
  have hrow {i : Nat} (hi : i < R.length) := getD_pivot c hp hi0 hi
  have hx {j : Nat} (hj : j < c) : (R.getD i0 0).testBit j = false := hbelow i0 j hp0 hi0 hj
  have hlow {i j : Nat} (hi : i < R.length) (hip : i ≠ piv.length) (hj : j < c) :
      ((eliminate (swapRows R piv.length i0) piv.length c).getD i 0).testBit j =
        (R.getD (if i = i0 then piv.length else i) 0).testBit j := by
    rw [hrow hi, if_neg hip, testBit_clear_other (hx hj)]
  have hcolc {i : Nat} (hi : i < R.length) :
      ((eliminate (swapRows R piv.length i0) piv.length c).getD i 0).testBit c = decide (i = piv.length) := by
    rw [hrow hi]
    by_cases hip : i = piv.length
    · rw [if_pos hip, hbit, decide_eq_true hip]
    · rw [if_neg hip, testBit_clear_same hbit, decide_eq_false hip]
  have hpivrow {j : Nat} (hj : j < c) :
      ((eliminate (swapRows R piv.length i0) piv.length c).getD piv.length 0).testBit j = false := by
    rw [hrow hp, if_pos rfl, hx hj]
  refine ⟨by simp; omega, ?_, ?_, fun i j hi hj => ?_, fun i j hi hj => ?_, fun i j h1 hi hj => ?_⟩
  · rw [List.pairwise_append]
    refine ⟨hsorted, List.pairwise_singleton _ _, fun a ha b hb => ?_⟩
    obtain rfl : b = c := by simpa using hb
    exact hlt a ha
  · intro a ha
    obtain ha | ha := List.mem_append.1 ha
    · exact Nat.lt_succ_of_lt (hlt a ha)
    · obtain rfl : a = c := by simpa using ha
      exact Nat.lt_succ_self _
  · rw [eliminate_length, swapRows_length] at hi
    rw [List.length_append, List.length_singleton] at hj
    obtain hj | rfl := Nat.lt_succ_iff_lt_or_eq.1 hj
    · rw [getD_append_left hj]
      have hjc := getD_piv_lt hlt hj
      by_cases hip : i = piv.length
      · rw [hip, hpivrow hjc]
        exact (decide_eq_false (by omega)).symm
      · rw [hlow hi hip hjc, hcol _ _ (by split <;> omega) hj]
        split
        · rw [decide_eq_false (by omega), decide_eq_false (by omega)]
        · rfl
    · rw [getD_append_last, hcolc hi]
  · rw [List.length_append, List.length_singleton] at hi
    obtain hi | rfl := Nat.lt_succ_iff_lt_or_eq.1 hi
    · rw [getD_append_left hi] at hj
      have hjc := hj.trans (getD_piv_lt hlt hi)
      rw [hlow (by omega) (by omega) hjc, if_neg (by omega)]
      exact hleft i j hi hj
    · rw [getD_append_last] at hj
      exact hpivrow hj
  · rw [eliminate_length, swapRows_length] at hi
    rw [List.length_append, List.length_singleton] at h1
    obtain hj | rfl := Nat.lt_succ_iff_lt_or_eq.1 hj
    · rw [hlow hi (by omega) hj]
      exact hbelow _ j (by split <;> omega) (by split <;> omega) hj
    · rw [hcolc hi]
      exact decide_eq_false (by omega)

/-- What the search for a pivot answers (43_matrix.md R181). -/
theorem pivotRow_eq_some {R : List Nat} {p col i : Nat} (h : pivotRow R p col = some i) :
    i < R.length ∧ p ≤ i ∧ (R.getD i 0).testBit col = true := by
  have hi := List.mem_range.1 (List.mem_of_find?_eq_some h)
  have := List.find?_some h
  simp only [Bool.and_eq_true, decide_eq_true_eq] at this
  exact ⟨hi, this.1, this.2⟩

theorem pivotRow_eq_none {R : List Nat} {p col : Nat} (h : pivotRow R p col = none) (i : Nat) (hp : p ≤ i)
    (hi : i < R.length) : (R.getD i 0).testBit col = false := by
  have := List.find?_eq_none.1 h i (List.mem_range.2 hi)
  simpa [hp] using this

/-- The loop from column `c` on: the rows end reduced below `c + k` and span what they did. -/
theorem rrefLoop_spec (k c : Nat) {R piv : List Nat} (h : Reduced R piv c) :
    Reduced (rrefLoop (List.range' c k) R piv.length piv).row (rrefLoop (List.range' c k) R piv.length piv).piv (c + k) ∧
      ∀ v, InSpan (rrefLoop (List.range' c k) R piv.length piv).row v ↔ InSpan R v := by
  induction k generalizing c R piv with
  | zero => exact ⟨h, fun v => Iff.rfl⟩
  | succ k ih =>
    rw [List.range'_succ, rrefLoop]
    split
    · rename_i hfull
      exact ⟨h.full hfull (by omega), fun v => Iff.rfl⟩
    · split
      · rename_i hnone
        rw [show c + (k + 1) = c + 1 + k by omega]
        exact ih (c + 1) (h.skip (pivotRow_eq_none hnone))
      · rename_i i0 hsome
        obtain ⟨hi0, hp0, hbit⟩ := pivotRow_eq_some hsome
        have hlen : piv.length + 1 = (piv ++ [c]).length := by simp
        rw [show c + (k + 1) = c + 1 + k by omega, hlen]
        obtain ⟨h1, h2⟩ := ih (c + 1) (h.pivot hi0 hp0 hbit)
        refine ⟨h1, fun v => (h2 v).trans ?_⟩
        rw [inSpan_eliminate (by rw [swapRows_length]; omega), inSpan_swapRows (by omega) hi0]

theorem rref_spec (A : Mat) (n : Nat) :
    Reduced (rref A n).row (rref A n).piv n ∧ ∀ v, InSpan (rref A n).row v ↔ InSpan A.row v := by
  have h := rrefLoop_spec n 0 (reduced_start A.row)
  rw [Nat.zero_add, ← List.range_eq_range'] at h
  exact h

theorem rref_reduced (A : Mat) (n : Nat) : Reduced (rref A n).row (rref A n).piv n := (rref_spec A n).1

theorem inSpan_rref (A : Mat) (n v : Nat) : InSpan (rref A n).row v ↔ InSpan A.row v := (rref_spec A n).2 v

theorem rref_rank_le (A : Mat) (n : Nat) : (rref A n).rank ≤ A.rows := by
  rw [rref_rank_eq, ← rref_length A n]
  exact (rref_reduced A n).rank_le

/-- Elimination makes no bit outside the columns. -/
theorem rref_row_lt {A : Mat} (h : ∀ r ∈ A.row, r < 2 ^ A.cols) (n : Nat) : ∀ r ∈ (rref A n).row, r < 2 ^ A.cols := by
  refine forall_mem_of_getD fun i _ => ?_
  obtain ⟨u, hu⟩ := (inSpan_rref A n _).1 (InSpan.row (rref A n).row i)
  rw [← hu]
  exact selectRows_lt h u

/-- Settles O48: the invariant `Reduced` of the loop over the columns, and the row space each round keeps. -/
theorem rowReductionIsReduced : Obligations.RowReductionIsReduced := by
  intro A n _ _ R
  have h := rref_reduced A n
  have hrank : R.rank = R.piv.length := rref_rank_eq A n
  have hlen : R.row.length = A.rows := rref_length A n
  refine ⟨hlen, hrank, rref_rank_le A n, h.sorted, h.piv_lt, fun i j hi hj => ?_, fun i j hi hj => ?_, fun i j h1 h2 hj => ?_,
    fun v => (inSpan_rref A n v).symm⟩
  · exact h.pivot_column i j (hlen ▸ hi) (hrank ▸ hj)
  · exact h.left_zero i j (hrank ▸ hi) hj
  · exact h.below_zero i j (hrank ▸ h1) (hlen ▸ h2) hj

/-- Settles O49: the reduced rows stay inside the columns, and the rank is at most the row count. -/
theorem mrowredWritesReducedMatrix : Obligations.MrowredWritesReducedMatrix := by
  intro s a b hs hc
  obtain ⟨-, hr32, -, hlt⟩ := inv_matOk hs b
  have hexec := exec_completes_noField (i := .mrowred a b) rfl rfl rfl (check_passes (decide_eq_true hc))
  rw [setM_eq s a (rref_row_lt hlt _)] at hexec
  refine ⟨_, hexec, ?_, ?_, ?_, ?_⟩
  · simp only [OnlyCompletes, State.finish, State.setRank, getElem_set_self_m]
  · simp only [State.finish, State.setRank, getElem_set_self_m]
  · simp only [State.finish, State.setRank, getElem_set_self_m]
  · exact Nat.mod_eq_of_lt ((rref_rank_le _ _).trans_lt hr32)

end Sys2Proof.Machine
end

section
/-! PROOFS. What a reduced form says of the vectors orthogonal to its rows, and MNULL (43_matrix.md R186, R188). -/

namespace Sys2Proof.Machine

/-! ## The inner product over GF(2) -/

/-- The inner product of two packed rows over their first `n` bits. -/
def dot (n x v : Nat) : ZMod 2 := ∑ j ∈ Finset.range n, bitZ x j * bitZ v j

@[simp] theorem zero_dot (n v : Nat) : dot n 0 v = 0 := by simp [dot]

theorem dot_xor_left (n x y v : Nat) : dot n (x ^^^ y) v = dot n x v + dot n y v := by
  rw [dot, dot, dot, ← Finset.sum_add_distrib]
  exact Finset.sum_congr rfl fun j _ => by rw [bitZ_xor, add_mul]

theorem dot_comm (n x v : Nat) : dot n x v = dot n v x := Finset.sum_congr rfl fun _ _ => mul_comm _ _

theorem bitOf_xorBits_and (n x v : Nat) : bitOf (xorBits n fun j => x.testBit j && v.testBit j) = dot n x v := by
  rw [bitOf_xorBits]
  exact Finset.sum_congr rfl fun j _ => bitOf_and _ _

/-- A vector orthogonal to the rows is orthogonal to their sums. -/
theorem dot_eq_zero_of_inSpan {L : List Nat} {n v w : Nat} (h : ∀ x ∈ L, dot n x v = 0) (hw : InSpan L w) : dot n w v = 0 := by
  obtain ⟨u, rfl⟩ := hw
  induction L generalizing u with
  | nil => exact zero_dot n v
  | cons b bs ih =>
    rw [selectRows, dot_xor_left, ih (fun x hx => h x (List.mem_cons_of_mem _ hx)), add_zero]
    split
    · exact h b List.mem_cons_self
    · exact zero_dot n v

theorem inSpan_of_mem {L : List Nat} {x : Nat} (hx : x ∈ L) : InSpan L x := by
  obtain ⟨i, hi, rfl⟩ := List.getElem_of_mem hx
  have h := InSpan.row L i
  rwa [List.getD_eq_getElem?_getD, List.getElem?_eq_getElem hi, Option.getD_some] at h

/-- Rows with one span have one set of orthogonal vectors. -/
theorem orthogonal_iff_of_span {L L' : List Nat} (hspan : ∀ w, InSpan L w ↔ InSpan L' w) (n v : Nat) :
    (∀ x ∈ L, dot n x v = 0) ↔ ∀ x ∈ L', dot n x v = 0 :=
  ⟨fun h _ hx => dot_eq_zero_of_inSpan h ((hspan _).2 (inSpan_of_mem hx)),
    fun h _ hx => dot_eq_zero_of_inSpan h ((hspan _).1 (inSpan_of_mem hx))⟩

/-! ## Pivot columns and free columns -/

theorem sum_map_eq_sum_getD {M : Type} [AddCommMonoid M] (l : List Nat) (q : Nat → M) :
    (l.map q).sum = ∑ k ∈ Finset.range l.length, q (l.getD k 0) := by
  induction l with
  | nil => rfl
  | cons x xs ih =>
    rw [List.map_cons, List.sum_cons, ih, List.length_cons, Finset.sum_range_succ', add_comm]
    rfl

theorem mem_freeCols {c j : Nat} {piv : List Nat} : j ∈ freeCols c piv ↔ j < c ∧ j ∉ piv := by
  simp [freeCols]

theorem getD_mem_of_lt {l : List Nat} {k : Nat} (h : k < l.length) : l.getD k 0 ∈ l := by
  rw [List.getD_eq_getElem?_getD, List.getElem?_eq_getElem h]
  exact List.getElem_mem h

theorem exists_getD_of_mem {l : List Nat} {x : Nat} (h : x ∈ l) : ∃ k, k < l.length ∧ l.getD k 0 = x := by
  obtain ⟨k, hk, rfl⟩ := List.getElem_of_mem h
  exact ⟨k, hk, by rw [List.getD_eq_getElem?_getD, List.getElem?_eq_getElem hk, Option.getD_some]⟩

theorem getD_inj_of_nodup {l : List Nat} (h : l.Nodup) {i k : Nat} (hi : i < l.length) (hk : k < l.length) :
    l.getD i 0 = l.getD k 0 ↔ i = k := by
  rw [List.getD_eq_getElem?_getD, List.getD_eq_getElem?_getD, List.getElem?_eq_getElem hi, List.getElem?_eq_getElem hk,
    Option.getD_some, Option.getD_some, h.getElem_inj_iff]

theorem nodup_freeCols (c : Nat) (piv : List Nat) : (freeCols c piv).Nodup := List.nodup_range.filter _

/-- One step of the fold that makes a null row: the pivot column of a row with a 1 at the free column `f`. -/
def orPivot (f acc : Nat) (q : Nat × Nat) : Nat := if q.2.testBit f then acc ||| (1 <<< q.1) else acc

theorem nullRow_eq_foldl (R : Rref) (f : Nat) : nullRow R f = (R.piv.zip R.row).foldl (orPivot f) (1 <<< f) := rfl

section Reduced

variable {R : Rref} {n : Nat} (h : Reduced R.row R.piv n)
include h

theorem Reduced.nodup : R.piv.Nodup := h.sorted.imp Nat.ne_of_lt

/-- Every column is a pivot column or a free one. -/
theorem Reduced.piv_append_freeCols_perm : (R.piv ++ freeCols n R.piv).Perm (List.range n) := by
  refine (List.perm_ext_iff_of_nodup ?_ List.nodup_range).2 fun j => ?_
  · exact h.nodup.append (nodup_freeCols n R.piv) fun j hj hj' => (mem_freeCols.1 hj').2 hj
  · rw [List.mem_append, mem_freeCols, List.mem_range]
    constructor
    · rintro (hj | ⟨hj, -⟩)
      · exact h.piv_lt j hj
      · exact hj
    · intro hj
      by_cases hp : j ∈ R.piv
      · exact Or.inl hp
      · exact Or.inr ⟨hj, hp⟩

theorem Reduced.rank_add_freeCols : R.piv.length + (freeCols n R.piv).length = n := by
  simpa using h.piv_append_freeCols_perm.length_eq

/-- A sum over the columns, split into pivot columns and free ones. -/
theorem Reduced.sum_columns (q : Nat → ZMod 2) :
    ∑ j ∈ Finset.range n, q j = ∑ i ∈ Finset.range R.piv.length, q (R.piv.getD i 0) +
      ∑ k ∈ Finset.range (freeCols n R.piv).length, q ((freeCols n R.piv).getD k 0) := by
  rw [← sum_map_eq_sum_getD, ← sum_map_eq_sum_getD, ← List.sum_append, ← List.map_append,
    (h.piv_append_freeCols_perm.map q).sum_eq]
  rfl

theorem Reduced.bitZ_pivot {i j : Nat} (hi : i < R.row.length) (hj : j < R.piv.length) :
    bitZ (R.row.getD i 0) (R.piv.getD j 0) = if i = j then 1 else 0 := by
  rw [bitZ, h.pivot_column i j hi hj]
  by_cases hij : i = j <;> simp [hij]

/-- The inner product with a pivot row. -/
theorem Reduced.dot_row {i : Nat} (hi : i < R.piv.length) (v : Nat) :
    dot n (R.row.getD i 0) v = bitZ v (R.piv.getD i 0) + ∑ k ∈ Finset.range (freeCols n R.piv).length,
      bitZ (R.row.getD i 0) ((freeCols n R.piv).getD k 0) * bitZ v ((freeCols n R.piv).getD k 0) := by
  rw [dot, h.sum_columns, Finset.sum_eq_single i]
  · rw [h.bitZ_pivot (hi.trans_le h.rank_le) hi, if_pos rfl, one_mul]
  · intro j hj hne
    rw [h.bitZ_pivot (hi.trans_le h.rank_le) (Finset.mem_range.1 hj), if_neg (Ne.symm hne), zero_mul]
  · intro hn
    exact absurd (Finset.mem_range.2 hi) hn

/-- The rows from the rank on are orthogonal to everything. -/
theorem Reduced.dot_below {i : Nat} (h1 : R.piv.length ≤ i) (hi : i < R.row.length) (v : Nat) : dot n (R.row.getD i 0) v = 0 :=
  Finset.sum_eq_zero fun j hj => by
    rw [bitZ, h.below_zero i j h1 hi (Finset.mem_range.1 hj), bitOf_false, zero_mul]

theorem Reduced.orthogonal_iff (v : Nat) :
    (∀ x ∈ R.row, dot n x v = 0) ↔ ∀ i, i < R.piv.length → dot n (R.row.getD i 0) v = 0 := by
  constructor
  · exact fun hv i hi => hv _ (getD_mem_of_lt (hi.trans_le h.rank_le))
  · refine fun hv => forall_mem_of_getD fun i hi => ?_
    by_cases hp : i < R.piv.length
    · exact hv i hp
    · exact h.dot_below (by omega) hi v

/-! ## The rows of the null space -/

omit h in
theorem testBit_orPivots (f j : Nat) (l : List (Nat × Nat)) (acc : Nat) :
    (l.foldl (orPivot f) acc).testBit j = (acc.testBit j || l.any fun q => q.2.testBit f && q.1 == j) := by
  induction l generalizing acc with
  | nil => simp
  | cons q l ih =>
    rw [List.foldl_cons, ih, List.any_cons, ← Bool.or_assoc, orPivot]
    congr 1
    by_cases hq : q.2.testBit f
    · rw [if_pos hq, hq, Nat.testBit_or, Nat.shiftLeft_eq, one_mul, Nat.testBit_two_pow, Bool.true_and]
      rfl
    · rw [if_neg hq, Bool.eq_false_iff.2 hq, Bool.false_and, Bool.or_false]

omit h in
theorem testBit_nullRow (R : Rref) (f j : Nat) :
    (nullRow R f).testBit j = (decide (f = j) || (R.piv.zip R.row).any fun q => q.2.testBit f && q.1 == j) := by
  rw [nullRow_eq_foldl, testBit_orPivots, Nat.shiftLeft_eq, one_mul, Nat.testBit_two_pow]

omit h in
/-- A null row at a free column. -/
theorem bitZ_nullRow_free {f j : Nat} (hj : j ∈ freeCols n R.piv) : bitZ (nullRow R f) j = if f = j then 1 else 0 := by
  have hany : ((R.piv.zip R.row).any fun q => q.2.testBit f && q.1 == j) = false := by
    rw [List.any_eq_false]
    rintro ⟨pc, r⟩ hq
    have hpc : pc ≠ j := fun hpj => (mem_freeCols.1 hj).2 (hpj ▸ (List.of_mem_zip hq).1)
    simp [hpc]
  rw [bitZ, testBit_nullRow, hany, Bool.or_false]
  by_cases hf : f = j <;> simp [hf]

/-- A null row at a pivot column. -/
theorem Reduced.bitZ_nullRow_pivot {f i : Nat} (hf : f ∈ freeCols n R.piv) (hi : i < R.piv.length) :
    bitZ (nullRow R f) (R.piv.getD i 0) = bitZ (R.row.getD i 0) f := by
  have hne : f ≠ R.piv.getD i 0 := fun hfp => (mem_freeCols.1 hf).2 (hfp ▸ getD_mem_of_lt hi)
  have hir := hi.trans_le h.rank_le
  have hany : ((R.piv.zip R.row).any fun q => q.2.testBit f && q.1 == R.piv.getD i 0) = (R.row.getD i 0).testBit f := by
    rw [Bool.eq_iff_iff, List.any_eq_true]
    constructor
    · rintro ⟨⟨pc, r⟩, hq, hb⟩
      obtain ⟨k, hk, hkq⟩ := List.getElem_of_mem hq
      rw [List.length_zip, lt_min_iff] at hk
      rw [List.getElem_zip, Prod.mk.injEq] at hkq
      obtain ⟨rfl, rfl⟩ := hkq
      rw [Bool.and_eq_true, beq_iff_eq] at hb
      obtain ⟨hb, hpc⟩ := hb
      have : R.piv.getD k 0 = R.piv.getD i 0 := by
        rw [← hpc, List.getD_eq_getElem?_getD, List.getElem?_eq_getElem hk.1, Option.getD_some]
      rw [getD_inj_of_nodup h.nodup hk.1 hi] at this
      subst this
      rwa [List.getD_eq_getElem?_getD, List.getElem?_eq_getElem hir, Option.getD_some]
    · intro hb
      refine ⟨(R.piv.getD i 0, R.row.getD i 0), ?_, by simpa using hb⟩
      rw [List.getD_eq_getElem?_getD, List.getD_eq_getElem?_getD, List.getElem?_eq_getElem hi, List.getElem?_eq_getElem hir]
      exact List.mem_iff_getElem.2 ⟨i, by rw [List.length_zip]; exact lt_min hi hir, List.getElem_zip⟩
  rw [bitZ, testBit_nullRow, hany, decide_eq_false hne, Bool.false_or]
  rfl

omit h in
theorem getD_nullRows {k : Nat} (hk : k < (freeCols n R.piv).length) :
    ((freeCols n R.piv).map (nullRow R)).getD k 0 = nullRow R ((freeCols n R.piv).getD k 0) := by
  simp [hk]

omit h in
/-- A sum of null rows at a free column is the selection there. -/
theorem bitZ_sum_free (u : Nat) {k : Nat} (hk : k < (freeCols n R.piv).length) :
    bitZ (selectRows u ((freeCols n R.piv).map (nullRow R))) ((freeCols n R.piv).getD k 0) = bitZ u k := by
  rw [bitZ_selectRows, List.length_map, Finset.sum_eq_single k]
  · rw [getD_nullRows hk, bitZ_nullRow_free (getD_mem_of_lt hk), if_pos rfl, mul_one]
  · intro l hl hne
    have hl := Finset.mem_range.1 hl
    rw [getD_nullRows hl, bitZ_nullRow_free (getD_mem_of_lt hk),
      if_neg fun heq => hne ((getD_inj_of_nodup (nodup_freeCols _ _) hl hk).1 heq), mul_zero]
  · intro hn
    exact absurd (Finset.mem_range.2 hk) hn

/-- A sum of null rows at a pivot column. -/
theorem Reduced.bitZ_sum_pivot (u : Nat) {i : Nat} (hi : i < R.piv.length) :
    bitZ (selectRows u ((freeCols n R.piv).map (nullRow R))) (R.piv.getD i 0) =
      ∑ k ∈ Finset.range (freeCols n R.piv).length, bitZ (R.row.getD i 0) ((freeCols n R.piv).getD k 0) * bitZ u k := by
  rw [bitZ_selectRows, List.length_map]
  refine Finset.sum_congr rfl fun k hk => ?_
  have hk := Finset.mem_range.1 hk
  rw [getD_nullRows hk, h.bitZ_nullRow_pivot (getD_mem_of_lt hk) hi, mul_comm]

theorem Reduced.nullRow_lt {f : Nat} (hf : f ∈ freeCols n R.piv) : nullRow R f < 2 ^ n := by
  refine Nat.lt_pow_two_of_testBit _ fun j hj => ?_
  have hne : f ≠ j := fun hfj => by
    have := (mem_freeCols.1 hf).1
    omega
  rw [testBit_nullRow, decide_eq_false hne, Bool.false_or, List.any_eq_false]
  rintro ⟨pc, r⟩ hq
  have hpc : pc ≠ j := fun hpj => by
    have := h.piv_lt pc (List.of_mem_zip hq).1
    omega
  simp [hpc]

theorem Reduced.nullRows_lt : ∀ x ∈ (freeCols n R.piv).map (nullRow R), x < 2 ^ n := by
  intro x hx
  obtain ⟨f, hf, rfl⟩ := List.mem_map.1 hx
  exact h.nullRow_lt hf

/-- The sums of null rows are orthogonal to the rows. -/
theorem Reduced.orthogonal_sum (u : Nat) :
    ∀ x ∈ R.row, dot n x (selectRows u ((freeCols n R.piv).map (nullRow R))) = 0 := by
  refine (h.orthogonal_iff _).2 fun i hi => ?_
  rw [h.dot_row hi, h.bitZ_sum_pivot u hi, ← Finset.sum_add_distrib]
  refine Finset.sum_eq_zero fun k hk => ?_
  rw [bitZ_sum_free u (Finset.mem_range.1 hk)]
  exact CharTwo.add_self_eq_zero _

/-- The selection that gives an orthogonal vector: its bits at the free columns. -/
def freeBits (n : Nat) (R : Rref) (v : Nat) : Nat := packBits ((freeCols n R.piv).map v.testBit)

omit h in
theorem freeBits_lt (n : Nat) (R : Rref) (v : Nat) : freeBits n R v < 2 ^ (freeCols n R.piv).length :=
  (packBits_lt _).trans_eq (by rw [List.length_map])

omit h in
theorem bitZ_freeBits (v : Nat) {k : Nat} (hk : k < (freeCols n R.piv).length) :
    bitZ (freeBits n R v) k = bitZ v ((freeCols n R.piv).getD k 0) := by
  simp [freeBits, bitZ, testBit_packBits, hk]

theorem Reduced.sum_freeBits {v : Nat} (hv : v < 2 ^ n) (horth : ∀ x ∈ R.row, dot n x v = 0) :
    selectRows (freeBits n R v) ((freeCols n R.piv).map (nullRow R)) = v := by
  refine eq_of_bitZ (selectRows_lt h.nullRows_lt _) hv fun j hj => ?_
  by_cases hp : j ∈ R.piv
  · obtain ⟨i, hi, rfl⟩ := exists_getD_of_mem hp
    have hdot := (h.orthogonal_iff v).1 horth i hi
    rw [h.dot_row hi, CharTwo.add_eq_zero] at hdot
    rw [h.bitZ_sum_pivot _ hi, hdot]
    exact Finset.sum_congr rfl fun k hk => by rw [bitZ_freeBits v (Finset.mem_range.1 hk)]
  · obtain ⟨k, hk, rfl⟩ := exists_getD_of_mem (mem_freeCols.2 ⟨hj, hp⟩)
    rw [bitZ_sum_free _ hk, bitZ_freeBits v hk]

/-- The vectors orthogonal to the rows are the sums of null rows, each in one way. -/
theorem Reduced.orthogonal_iff_existsUnique {v : Nat} (hv : v < 2 ^ n) :
    (∀ x ∈ R.row, dot n x v = 0) ↔
      ∃! u, u < 2 ^ (freeCols n R.piv).length ∧ selectRows u ((freeCols n R.piv).map (nullRow R)) = v := by
  constructor
  · refine fun horth => ⟨freeBits n R v, ⟨freeBits_lt n R v, h.sum_freeBits hv horth⟩, ?_⟩
    rintro u ⟨hu, rfl⟩
    refine eq_of_bitZ hu (freeBits_lt n R _) fun k hk => ?_
    rw [bitZ_freeBits _ hk, bitZ_sum_free u hk]
  · rintro ⟨u, ⟨-, rfl⟩, -⟩
    exact h.orthogonal_sum u

end Reduced

/-- A vector orthogonal to every row of a matrix, bit by bit. -/
theorem orthogonal_bits_iff (A : Mat) (n v : Nat) :
    (∀ i, i < A.rows → (xorBits n fun j => A.bit i j && v.testBit j) = false) ↔ ∀ x ∈ A.row, dot n x v = 0 := by
  have hrow (i : Nat) : (xorBits n fun j => A.bit i j && v.testBit j) = false ↔ dot n (A.rowAt i) v = 0 := by
    rw [← bitOf_xorBits_and, bitOf_eq_zero_iff]
    rfl
  simp only [hrow]
  exact ⟨fun h => Mat.forall_mem_row h, fun h i hi => h _ (getD_mem_of_lt hi)⟩

/-- Settles O50: the orthogonal vectors are those of the reduced form, which the null rows span. -/
theorem mnullWritesNullSpaceBasis : Obligations.MnullWritesNullSpaceBasis := by
  intro s a b hs A hcap
  obtain ⟨hrmax, hr32, -, hlt⟩ := inv_matOk hs b
  have h := rref_reduced A A.cols
  have hexec := exec_completes_noField (i := .mnull a b) rfl rfl rfl (check_passes (decide_eq_true hcap))
  rw [setM_eq s a h.nullRows_lt] at hexec
  refine ⟨_, hexec, ?_, ?_, ?_, ?_, fun v hv => ?_⟩
  · simp only [OnlyCompletes, State.finish, State.setRank, getElem_set_self_m]
  · exact Nat.mod_eq_of_lt ((rref_rank_le _ _).trans_lt hr32)
  · simp only [State.finish, State.setRank, getElem_set_self_m]
    rfl
  · simp only [State.finish, State.setRank, getElem_set_self_m]
    exact nullBasis_rows _ _
  · simp only [State.finish, State.setRank, getElem_set_self_m]
    rw [orthogonal_bits_iff, ← orthogonal_iff_of_span (inSpan_rref A A.cols), h.orthogonal_iff_existsUnique hv]
    simp only [Mat.rows, nullBasis, List.length_map]
    rfl

end Sys2Proof.Machine
end

section
/-! PROOFS. Full rank and invertibility: MINV and MDET (43_matrix.md R189, R190). -/

namespace Sys2Proof.Machine

/-! ## Full rank -/

/-- A sum of rows of a reduced form that is 0 at the pivots is 0 in all the columns reduced. -/
theorem Reduced.eq_zero_of_pivots {R : Rref} {n v j : Nat} (h : Reduced R.row R.piv n) (hv : InSpan R.row v)
    (hpiv : ∀ i, i < R.piv.length → bitZ v (R.piv.getD i 0) = 0) (hj : j < n) : bitZ v j = 0 := by
  obtain ⟨u, rfl⟩ := hv
  have hu (i : Nat) (hi : i < R.piv.length) : bitZ u i = 0 := by
    have hir := hi.trans_le h.rank_le
    rw [← hpiv i hi, bitZ_selectRows, Finset.sum_eq_single i]
    · rw [h.bitZ_pivot hir hi, if_pos rfl, mul_one]
    · intro k hk hne
      rw [h.bitZ_pivot (Finset.mem_range.1 hk) hi, if_neg hne, mul_zero]
    · intro hn
      exact absurd (Finset.mem_range.2 hir) hn
  rw [bitZ_selectRows]
  refine Finset.sum_eq_zero fun k hk => ?_
  by_cases hkp : k < R.piv.length
  · rw [hu k hkp, zero_mul]
  · rw [bitZ, bitZ, h.below_zero k j (by omega) (Finset.mem_range.1 hk) hj, bitOf_false, mul_zero]

/-- Every unit vector of the first `n` columns is a sum of rows, up to the columns after them. -/
def SpansUnits (L : List Nat) (n : Nat) : Prop := ∀ f, f < n → ∃ v, InSpan L v ∧ ∀ j, j < n → bitZ v j = if j = f then 1 else 0

theorem spansUnits_congr {L L' : List Nat} (hspan : ∀ w, InSpan L w ↔ InSpan L' w) (n : Nat) :
    SpansUnits L n ↔ SpansUnits L' n := by
  simp only [SpansUnits, hspan]

theorem Reduced.rank_eq_iff {R : Rref} {n : Nat} (h : Reduced R.row R.piv n) : R.piv.length = n ↔ SpansUnits R.row n := by
  have hsplit := h.rank_add_freeCols
  constructor
  · intro hfull f hf
    have hnil : freeCols n R.piv = [] := List.eq_nil_of_length_eq_zero (by omega)
    have hmem {j : Nat} (hj : j < n) : j ∈ R.piv := by
      by_contra hp
      have := mem_freeCols.2 ⟨hj, hp⟩
      simp [hnil] at this
    obtain ⟨i, hi, rfl⟩ := exists_getD_of_mem (hmem hf)
    refine ⟨_, InSpan.row R.row i, fun j hj => ?_⟩
    obtain ⟨k, hk, rfl⟩ := exists_getD_of_mem (hmem hj)
    rw [h.bitZ_pivot (hi.trans_le h.rank_le) hk]
    by_cases hik : i = k
    · rw [if_pos hik, if_pos (by rw [hik])]
    · rw [if_neg hik, if_neg fun heq => hik ((getD_inj_of_nodup h.nodup hk hi).1 heq).symm]
  · intro hunits
    by_contra hne
    have hpos : 0 < (freeCols n R.piv).length := by omega
    have hf := mem_freeCols.1 (getD_mem_of_lt hpos)
    obtain ⟨v, hv, hbits⟩ := hunits _ hf.1
    have hzero := h.eq_zero_of_pivots hv (fun i hi => ?_) hf.1
    · rw [hbits _ hf.1, if_pos rfl] at hzero
      exact one_ne_zero hzero
    · have hp := getD_mem_of_lt hi
      rw [hbits _ (h.piv_lt _ hp), if_neg]
      exact fun heq => hf.2 (heq ▸ hp)

/-- The rank is the number of columns exactly when the rows span the unit vectors. -/
theorem rref_rank_eq_iff (A : Mat) (n : Nat) : (rref A n).rank = n ↔ SpansUnits A.row n := by
  rw [rref_rank_eq, (rref_reduced A n).rank_eq_iff, spansUnits_congr (inSpan_rref A n)]

/-- The rows of a full reduced form are the unit vectors. -/
theorem bitZ_rref_of_full {A : Mat} {n i j : Nat} (hfull : (rref A n).rank = n) (hi : i < n) (hj : j < n) :
    bitZ ((rref A n).row.getD i 0) j = if i = j then 1 else 0 := by
  have h := rref_reduced A n
  rw [rref_rank_eq] at hfull
  have hpiv : (rref A n).piv = List.range n :=
    (rref_piv_sublist A n).eq_of_length (hfull.trans List.length_range.symm)
  have hget : (rref A n).piv.getD j 0 = j := by simp [hpiv, hj]
  have hb := h.bitZ_pivot (hi.trans_le (hfull.symm.trans_le h.rank_le)) (hj.trans_le hfull.ge)
  rwa [hget] at hb

/-! ## Products that are the identity -/

/-- The entries of a matrix as elements of GF(2). -/
def toMatrix (n : Nat) (A : Mat) : Matrix (Fin n) (Fin n) (ZMod 2) := fun i j => bitZ (A.rowAt i) j

/-- Row `i` of `B` selects rows of `A` that sum to the unit vector `i`. -/
def SelectsUnits (n : Nat) (B A : Mat) : Prop :=
  ∀ i j, i < n → j < n → bitZ (selectRows (B.rowAt i) A.row) j = if i = j then 1 else 0

theorem selectsUnits_iff {n : Nat} {A : Mat} (hA : A.rows = n) (B : Mat) :
    SelectsUnits n B A ↔ toMatrix n B * toMatrix n A = 1 := by
  have hentry (i j : Fin n) : (toMatrix n B * toMatrix n A) i j = bitZ (selectRows (B.rowAt i) A.row) j := by
    have hA : A.row.length = n := hA
    rw [Matrix.mul_apply, bitZ_selectRows, hA]
    exact (Finset.sum_range fun k => bitZ (B.rowAt i) k * bitZ (A.row.getD k 0) j).symm
  rw [← Matrix.ext_iff]
  simp only [hentry, Matrix.one_apply, Fin.ext_iff]
  exact ⟨fun h i j => h i j i.isLt j.isLt, fun h i j hi hj => h ⟨i, hi⟩ ⟨j, hj⟩⟩

/-- Over a field a left inverse is a right one. -/
theorem selectsUnits_comm {n : Nat} {A B : Mat} (hA : A.rows = n) (hB : B.rows = n) : SelectsUnits n B A ↔ SelectsUnits n A B := by
  rw [selectsUnits_iff hA, selectsUnits_iff hB, mul_eq_one_comm]

theorem rowAt_matId {n i : Nat} (hi : i < n) : (matId n).rowAt i = 2 ^ i := by
  simp [matId, Mat.rowAt, hi, Nat.shiftLeft_eq]

theorem ext_rowAt {A B : Mat} (hr : A.rows = B.rows) (hc : A.cols = B.cols) (h : ∀ i, i < A.rows → A.rowAt i = B.rowAt i) :
    A = B := by
  obtain ⟨c, R⟩ := A
  obtain ⟨c', R'⟩ := B
  obtain rfl : c = c' := hc
  obtain rfl : R = R' := by
    refine List.ext_getElem hr fun i h1 h2 => ?_
    have hrow := h i h1
    simpa [Mat.rowAt, h1, h2] using hrow
  rfl

/-- A product is the identity exactly when its entries are. -/
theorem matMul_eq_matId_iff {n : Nat} {A B : Mat} (hA : A.rows = n) (hc : B.cols = n) (hB : ∀ r ∈ B.row, r < 2 ^ n) :
    matMul A B = matId n ↔ SelectsUnits n A B := by
  have hrow {i : Nat} (hi : i < n) : (matMul A B).rowAt i = selectRows (A.rowAt i) B.row := rowAt_matMul A B (by omega)
  constructor
  · intro h i j hi hj
    rw [← hrow hi, h, rowAt_matId hi, bitZ_two_pow]
  · intro h
    refine ext_rowAt (by simp [hA]) hc fun i hi => ?_
    rw [matMul_rows, hA] at hi
    rw [hrow hi, rowAt_matId hi]
    refine eq_of_bitZ (selectRows_lt hB _) (Nat.pow_lt_pow_right (by decide) hi) fun j hj => ?_
    rw [h i j hi hj, bitZ_two_pow]

theorem selectsUnits_of_product {n : Nat} {A B : Mat} (hA : A.rows = n) (h : matMul A B = matId n) : SelectsUnits n A B := by
  intro i j hi _
  rw [← rowAt_matMul A B (by omega), h, rowAt_matId hi, bitZ_two_pow]

/-- A selection of rows for every unit vector, as a matrix. -/
theorem exists_selectsUnits {n : Nat} {A : Mat} (hA : A.rows = n) (h : SpansUnits A.row n) :
    ∃ B : Mat, B.rows = n ∧ B.cols = n ∧ (∀ r ∈ B.row, r < 2 ^ n) ∧ SelectsUnits n B A := by
  have hsel (i : Fin n) : ∃ u, u < 2 ^ n ∧ ∀ j, j < n → bitZ (selectRows u A.row) j = if j = i then 1 else 0 := by
    obtain ⟨-, ⟨u, rfl⟩, hbits⟩ := h i i.isLt
    have hmod : selectRows (u % 2 ^ n) A.row = selectRows u A.row := by
      rw [← hA]
      exact selectRows_mod u A.row
    exact ⟨u % 2 ^ n, Nat.mod_lt _ (Nat.two_pow_pos n), fun j hj => by rw [hmod, hbits j hj]⟩
  choose u hu hbits using hsel
  refine ⟨⟨n, List.ofFn u⟩, List.length_ofFn, rfl, fun r hr => ?_, fun i j hi hj => ?_⟩
  · obtain ⟨i, rfl⟩ := List.mem_ofFn.1 hr
    exact hu i
  · have hrow : Mat.rowAt ⟨n, List.ofFn u⟩ i = u ⟨i, hi⟩ := by simp [Mat.rowAt, hi]
    rw [hrow, hbits _ j hj]
    exact if_congr eq_comm rfl rfl

/-- R189's notion of an inverse, by the rows of the operand. -/
theorem invertible_iff_spansUnits {A : Mat} :
    (∃ B : Mat, B.rows = A.rows ∧ B.cols = A.rows ∧ matMul A B = matId A.rows) ↔ SpansUnits A.row A.rows := by
  constructor
  · rintro ⟨B, hB, -, hprod⟩ f hf
    have hsel := (selectsUnits_comm rfl hB).2 (selectsUnits_of_product rfl hprod)
    refine ⟨_, ⟨B.rowAt f, rfl⟩, fun j hj => ?_⟩
    rw [hsel f j hf hj]
    exact if_congr eq_comm rfl rfl
  · intro h
    obtain ⟨B, hB, hc, hlt, hsel⟩ := exists_selectsUnits rfl h
    exact ⟨B, hB, hc, (matMul_eq_matId_iff rfl hc hlt).2 ((selectsUnits_comm rfl hB).1 hsel)⟩

/-! ## The matrix with the identity beside it -/

section Augmented

variable {A : Mat} (hsq : A.rows = A.cols) (hlt : ∀ r ∈ A.row, r < 2 ^ A.cols)
include hsq hlt

theorem bitZ_augmented {k : Nat} (hk : k < A.rows) (j : Nat) :
    bitZ ((matHcat A (matId A.rows)).row.getD k 0) j =
      if j < A.rows then bitZ (A.row.getD k 0) j else if k = j - A.rows then 1 else 0 := by
  have h := bit_matHcat A (matId A.rows) hlt hk (by rwa [matId_rows]) j
  rw [← hsq] at h
  change bitOf ((matHcat A (matId A.rows)).bit k j) = _
  rw [h]
  split
  · rfl
  · rw [Mat.bitOf_bit, rowAt_matId hk, bitZ_two_pow]

/-- The left half of a sum of rows of `[A | I]` is that sum of rows of `A`, … -/
theorem bitZ_augmented_left (u : Nat) {j : Nat} (hj : j < A.rows) :
    bitZ (selectRows u (matHcat A (matId A.rows)).row) j = bitZ (selectRows u A.row) j := by
  have hlen : (matHcat A (matId A.rows)).row.length = A.row.length := by simp [matHcat, matId, Mat.rows]
  rw [bitZ_selectRows, bitZ_selectRows, hlen]
  refine Finset.sum_congr rfl fun k hk => ?_
  rw [bitZ_augmented hsq hlt (Finset.mem_range.1 hk), if_pos hj]

/-- … and the right half the selection. -/
theorem bitZ_augmented_right (u : Nat) {j : Nat} (hj : j < A.rows) :
    bitZ (selectRows u (matHcat A (matId A.rows)).row) (A.rows + j) = bitZ u j := by
  have hlen : (matHcat A (matId A.rows)).row.length = A.rows := by simp [matHcat, matId, Mat.rows]
  rw [bitZ_selectRows, hlen, Finset.sum_eq_single j]
  · rw [bitZ_augmented hsq hlt hj, if_neg (by omega), if_pos (by omega), mul_one]
  · intro k hk hne
    rw [bitZ_augmented hsq hlt (Finset.mem_range.1 hk), if_neg (by omega), if_neg (by omega), mul_zero]
  · intro hn
    exact absurd (Finset.mem_range.2 hj) hn

theorem spansUnits_augmented : SpansUnits (matHcat A (matId A.rows)).row A.rows ↔ SpansUnits A.row A.rows := by
  constructor
  · intro h f hf
    obtain ⟨-, ⟨u, rfl⟩, hbits⟩ := h f hf
    exact ⟨_, ⟨u, rfl⟩, fun j hj => by rw [← bitZ_augmented_left hsq hlt u hj, hbits j hj]⟩
  · intro h f hf
    obtain ⟨-, ⟨u, rfl⟩, hbits⟩ := h f hf
    exact ⟨_, ⟨u, rfl⟩, fun j hj => by rw [bitZ_augmented_left hsq hlt u hj, hbits j hj]⟩

omit hsq hlt in
theorem rowAt_rightHalf {r i : Nat} {L : List Nat} (hi : i < L.length) {j : Nat} (hj : j < r) :
    bitZ ((rightHalf r L).rowAt i) j = bitZ (L.getD i 0) (r + j) := by
  simp [rightHalf, Mat.rowAt, hi, bitZ, Nat.testBit_shiftRight, Nat.testBit_mod_two_pow, hj]

/-- The right half of the full reduced form selects the unit vectors. -/
theorem selectsUnits_rightHalf (hfull : (rref (matHcat A (matId A.rows)) A.rows).rank = A.rows) :
    SelectsUnits A.rows (rightHalf A.rows (rref (matHcat A (matId A.rows)) A.rows).row) A := by
  intro i j hi hj
  have hlen : (rref (matHcat A (matId A.rows)) A.rows).row.length = A.rows := by simp
  obtain ⟨u, hu⟩ := (inSpan_rref _ A.rows _).1 (InSpan.row (rref (matHcat A (matId A.rows)) A.rows).row i)
  have hsel : selectRows ((rightHalf A.rows (rref (matHcat A (matId A.rows)) A.rows).row).rowAt i) A.row =
      selectRows u A.row := by
    refine eq_of_bitZ_all fun l => ?_
    rw [bitZ_selectRows, bitZ_selectRows]
    refine Finset.sum_congr rfl fun k hk => ?_
    have hk : k < A.rows := Finset.mem_range.1 hk
    rw [rowAt_rightHalf (by omega) hk, ← hu, bitZ_augmented_right hsq hlt u hk]
  rw [hsel, ← bitZ_augmented_left hsq hlt u hj, hu, bitZ_rref_of_full hfull hi hj]

end Augmented

theorem rightHalf_lt (r : Nat) (L : List Nat) : ∀ x ∈ (rightHalf r L).row, x < 2 ^ (rightHalf r L).cols := by
  intro x hx
  obtain ⟨y, -, rfl⟩ := List.mem_map.1 hx
  exact Nat.mod_lt _ (Nat.two_pow_pos r)

/-- Settles O51: full rank, the unit vectors among the sums of rows, and an inverse are one thing; the right half of the reduced
`[A | I]` is a left inverse, so a right one. -/
theorem minvAndMdetDecideInvertibility : Obligations.MinvAndMdetDecideInvertibility := by
  intro s a b hs hsq A invertible
  obtain ⟨-, -, -, hlt⟩ := inv_matOk hs b
  have hinv : invertible ↔ SpansUnits A.row A.rows := invertible_iff_spansUnits
  have hfull : (rref (matHcat A (matId A.rows)) A.rows).rank = A.rows ↔ invertible := by
    rw [rref_rank_eq_iff, hinv, spansUnits_augmented hsq hlt]
  have hdim : (s.m[b].rows == s.m[b].cols) = true := beq_iff_eq.2 hsq
  refine ⟨fun h => ?_, fun h => ?_, ?_⟩
  · obtain ⟨hm, honly⟩ := setM_onlyM s a (rightHalf_lt A.rows (rref (matHcat A (matId A.rows)) A.rows).row)
    refine ⟨_, exec_completes_noField rfl rfl rfl ((check_passes hdim).trans (check_passes (beq_iff_eq.2 (hfull.2 h)))), honly, ?_⟩
    rw [hm, matMul_eq_matId_iff rfl rfl (rightHalf_lt A.rows _), ← selectsUnits_comm rfl (by simp)]
    exact selectsUnits_rightHalf hsq hlt (hfull.2 h)
  · exact exec_fails rfl rfl (by simp [needsField]) ((check_passes hdim).trans (check_fails
      (beq_eq_false_iff_ne.2 (mt hfull.1 h))))
  · refine ⟨_, exec_completes_noField rfl rfl rfl (check_passes hdim), rfl, ?_⟩
    change ((rref A A.rows).rank == A.rows) = true ↔ _
    rw [beq_iff_eq, rref_rank_eq_iff, hinv]

end Sys2Proof.Machine
end

section
/-! PROOFS. The syndrome (44_goppa.md R216) as a polynomial over the field, and SYND. -/

namespace Sys2Proof.Machine

open scoped Polynomial

/-! ## The inverse of `x + α` modulo `g` -/

section Algebra

variable {K : Type} [Field K]

/-- The inverse of `x − a` modulo `p` with the sign of characteristic 2: `(p − p(a)) / ((x − a) · p(a))`. -/
noncomputable def inverseAt (p : K[X]) (a : K) : K[X] :=
  Polynomial.C (p.eval a)⁻¹ * (p /ₘ (Polynomial.X - Polynomial.C a))

theorem X_sub_C_mul_inverseAt {p : K[X]} {a : K} (ha : p.eval a ≠ 0) :
    (Polynomial.X - Polynomial.C a) * inverseAt p a = Polynomial.C (p.eval a)⁻¹ * p - 1 := by
  have hdiv := Polynomial.X_sub_C_mul_divByMonic_eq_sub_modByMonic p a
  rw [Polynomial.modByMonic_X_sub_C_eq_C_eval] at hdiv
  have hone : Polynomial.C (p.eval a)⁻¹ * Polynomial.C (p.eval a) = 1 := by
    rw [← Polynomial.C_mul, inv_mul_cancel₀ ha, Polynomial.C_1]
  rw [inverseAt]
  linear_combination Polynomial.C (p.eval a)⁻¹ * hdiv - hone

theorem degree_inverseAt_lt {p : K[X]} (hp : p ≠ 0) (a : K) : (inverseAt p a).degree < p.degree := by
  rw [inverseAt, ← Polynomial.smul_eq_C_mul]
  refine (Polynomial.degree_smul_le _ _).trans_lt (Polynomial.degree_divByMonic_lt _ _ hp ?_)
  rw [Polynomial.degree_X_sub_C]
  exact zero_lt_one

/-- The coefficients of the inverse, counted from the top. -/
theorem coeff_inverseAt (p : K[X]) (a : K) {i : Nat} (hi : i < p.natDegree) :
    (inverseAt p a).coeff (p.natDegree - 1 - i) =
      ∑ l ∈ Finset.range (i + 1), p.coeff (p.natDegree - i + l) * a ^ l * (p.eval a)⁻¹ := by
  have hshift : Finset.Icc (p.natDegree - 1 - i + 1) p.natDegree =
      (Finset.range (i + 1)).map (addLeftEmbedding (p.natDegree - i)) := by
    rw [Finset.range_eq_Ico, Finset.map_add_left_Ico]
    ext k
    simp only [Finset.mem_Icc, Finset.mem_Ico]
    omega
  rw [inverseAt, Polynomial.coeff_C_mul, Polynomial.coeff_divByMonic_X_sub_C, hshift, Finset.sum_map, Finset.mul_sum]
  refine Finset.sum_congr rfl fun l _ => ?_
  have hl : p.natDegree - i + l - (p.natDegree - 1 - i + 1) = l := by omega
  simp only [addLeftEmbedding_apply, hl]
  ring

/-- Two inverses modulo `g` below it in degree are equal. -/
theorem inverse_unique {u w a g : K[X]} (hu : g ∣ u * a - 1) (hw : g ∣ w * a - 1) (hud : u.degree < g.degree)
    (hwd : w.degree < g.degree) : u = w := by
  have hdvd : g ∣ u - w := by
    have h := (hu.mul_left w).sub (hw.mul_left u)
    rwa [show w * (u * a - 1) - u * (w * a - 1) = u - w by ring] at h
  exact sub_eq_zero.1 (Polynomial.eq_zero_of_dvd_of_degree_lt hdvd ((Polynomial.degree_sub_le _ _).trans_lt (max_lt hud hwd)))

end Algebra

theorem deg_padd_lt {A B : Poly} {n : Int} (hA : deg A < n) (hB : deg B < n) : deg (padd A B) < n := by
  have := neg_one_le_deg A
  obtain ⟨k, rfl⟩ := Int.eq_ofNat_of_zero_le (show 0 ≤ n by omega)
  exact deg_padd_le hA hB

namespace FieldModel

variable {F : Gf} {K : Type} [Field K] (M : FieldModel F K)

theorem poly_linear (α : Nat) : M.poly (norm [α, 1]) = Polynomial.X + Polynomial.C (M.val α) := by
  rw [poly_norm, poly_cons, poly_one, mul_one, add_comm]

include M in
theorem inField_linear {α : Nat} (hα : α < 2 ^ F.m) : InField F (norm [α, 1]) :=
  inField_norm (inField_iff.2 fun c hc => by
    have := M.one_lt
    simp only [List.mem_cons, List.not_mem_nil, or_false] at hc
    omega)

/-- The factor of one support entry in the syndrome. -/
noncomputable def entry (G : Poly) (α : Nat) : K[X] := inverseAt (M.poly G) (M.val α)

/-- The syndrome over the field: the sum of the inverses at the positions with a 1. -/
noncomputable def syndPoly (G : Poly) (r : Nat) (sup : List Nat) : K[X] :=
  ∑ j ∈ Finset.range sup.length, if r.testBit j then M.entry G (sup.getD j 0) else 0

include M

theorem dvd_entry_mul {G : Poly} {α : Nat} (hα : (M.poly G).eval (M.val α) ≠ 0) :
    M.poly G ∣ M.entry G α * (Polynomial.X + Polynomial.C (M.val α)) - 1 := by
  have := M.charTwo
  refine ⟨Polynomial.C ((M.poly G).eval (M.val α))⁻¹, ?_⟩
  have h := X_sub_C_mul_inverseAt hα
  rw [CharTwo.sub_eq_add, CharTwo.sub_eq_add] at h
  rw [entry, CharTwo.sub_eq_add]
  linear_combination h + CharTwo.two_eq_zero (R := K[X])

section Modulus

variable {G : Poly} (hG : InField F G) (hG1 : 1 ≤ deg G)
include hG hG1

theorem poly_ne_zero_of_deg : M.poly G ≠ 0 := (M.poly_eq_zero_iff hG).not.2 (by omega)

theorem degree_entry_lt (α : Nat) : (M.entry G α).degree < (M.poly G).degree :=
  degree_inverseAt_lt (M.poly_ne_zero_of_deg hG hG1) _

/-- `pinvmod` of `x + α` is the factor of `α`. -/
theorem pinvmod_linear {α : Nat} (hα : α < 2 ^ F.m) (hroot : peval F G α ≠ 0) :
    ∃ U, pinvmod F (norm [α, 1]) G = .ok U ∧ InField F U ∧ Memory.wf U ∧ deg U < deg G ∧ M.poly U = M.entry G α := by
  have heval : (M.poly G).eval (M.val α) ≠ 0 := by
    rw [← M.val_peval G hα, Ne, M.val_eq_zero_iff (M.peval_lt hG α)]
    exact hroot
  have hinv := M.dvd_entry_mul heval
  rw [← M.poly_linear α] at hinv
  obtain ⟨U, hok, hU, hw, hd, hdvd⟩ | ⟨-, hno⟩ := M.pinvmod_spec (M.inField_linear hα) hG hG1
  · exact ⟨U, hok, hU, hw, hd,
      inverse_unique hdvd hinv ((M.degree_lt_degree_iff hU hG).2 hd) (M.degree_entry_lt hG hG1 α)⟩
  · exact absurd (isCoprime_iff_inverse.2 ⟨_, hinv⟩) hno

theorem syndSum_spec (r : Nat) (rest : List Nat) (j : Nat) (hsup : ∀ α ∈ rest, α < 2 ^ F.m)
    (hroot : ∀ α ∈ rest, peval F G α ≠ 0) :
    ∃ S, syndSum F G r rest j = .ok S ∧ InField F S ∧ Memory.wf S ∧ deg S < deg G ∧
      M.poly S = ∑ i ∈ Finset.range rest.length, if r.testBit (i + j) then M.entry G (rest.getD i 0) else 0 := by
  induction rest generalizing j with
  | nil => exact ⟨[], rfl, inField_nil F, by decide, by rw [deg_nil]; omega, by simp⟩
  | cons α rest ih =>
    obtain ⟨S, hok, hS, hw, hd, hp⟩ := ih (j + 1) (fun β hβ => hsup β (List.mem_cons_of_mem _ hβ))
      fun β hβ => hroot β (List.mem_cons_of_mem _ hβ)
    have hsum : (∑ i ∈ Finset.range (α :: rest).length, if r.testBit (i + j) then M.entry G ((α :: rest).getD i 0) else 0) =
        M.poly S + if r.testBit j then M.entry G α else 0 := by
      rw [List.length_cons, Finset.sum_range_succ', hp, Nat.zero_add, List.getD_cons_zero]
      simp only [List.getD_cons_succ, Nat.add_assoc, Nat.add_comm 1 j]
    rw [hsum, syndSum_cons, hok]
    by_cases hbit : r.testBit j
    · obtain ⟨U, hUok, hU, hUw, hUd, hUp⟩ := M.pinvmod_linear hG hG1 (hsup α List.mem_cons_self) (hroot α List.mem_cons_self)
      refine ⟨padd U S, by simp only [bind, Except.bind, hbit, if_true, hUok], inField_padd hU hS, padd_wf U S,
        deg_padd_lt hUd hd, ?_⟩
      rw [if_pos hbit, poly_padd, hUp, add_comm]
    · exact ⟨S, by simp only [bind, Except.bind, if_neg hbit], hS, hw, hd, by rw [if_neg hbit, add_zero]⟩

/-- The syndrome (44_goppa.md R216): it exists, lies below `g`, and is the sum of the inverses. -/
theorem synd_spec (r : Nat) {sup : List Nat} (hsup : ∀ α ∈ sup, α < 2 ^ F.m) (hroot : ∀ α ∈ sup, peval F G α ≠ 0) :
    ∃ S, synd F G r sup = .ok S ∧ InField F S ∧ Memory.wf S ∧ deg S < deg G ∧ M.poly S = M.syndPoly G r sup := by
  obtain ⟨S, hok, hS, hw, hd, hp⟩ := M.syndSum_spec hG hG1 r sup 0 hsup hroot
  refine ⟨S, ?_, hS, hw, hd, hp⟩
  rw [synd_eq, hok]
  simp only [bind, Except.bind, M.pmod_eq_self hS hw hG hd]

omit hG hG1 in
theorem syndPoly_zero (sup : List Nat) : M.syndPoly G 0 sup = 0 := by simp [syndPoly]

omit hG hG1 in
/-- The syndrome is additive. -/
theorem syndPoly_xor (v x : Nat) (sup : List Nat) : M.syndPoly G (v ^^^ x) sup = M.syndPoly G v sup + M.syndPoly G x sup := by
  have := M.charTwo
  rw [syndPoly, syndPoly, syndPoly, ← Finset.sum_add_distrib]
  refine Finset.sum_congr rfl fun j _ => ?_
  rw [Nat.testBit_xor]
  cases v.testBit j <;> cases x.testBit j <;> simp [CharTwo.add_self_eq_zero]

omit hG hG1 in
theorem syndPoly_two_pow {sup : List Nat} {j : Nat} (hj : j < sup.length) : M.syndPoly G (2 ^ j) sup = M.entry G (sup.getD j 0) := by
  rw [syndPoly, Finset.sum_eq_single j]
  · simp
  · intro k _ hk
    simp [Ne.symm hk]
  · intro hn
    exact absurd (Finset.mem_range.2 hj) hn

theorem pmod_one : pmod F [1] G = [1] :=
  M.pmod_eq_self M.inField_one (by decide) hG (by simpa [deg, norm, consTrim] using hG1)

theorem pmod_eq_one_iff {A : Poly} (hA : InField F A) : pmod F A G = [1] ↔ M.poly G ∣ M.poly A - 1 := by
  conv_lhs => rw [← M.pmod_one hG hG1]
  rw [M.pmod_eq_pmod_iff hA M.inField_one hG (by omega), poly_one]

/-- Setting one more bit adds the inverse at its position. -/
theorem synd_xor_two_pow (v : Nat) {sup : List Nat} (hsup : ∀ α ∈ sup, α < 2 ^ F.m) (hroot : ∀ α ∈ sup, peval F G α ≠ 0) {j : Nat}
    (hj : j < sup.length) :
    ∃ S U, synd F G v sup = .ok S ∧ synd F G (v ^^^ 2 ^ j) sup = .ok (padd S U) ∧ InField F U ∧ deg U < deg G ∧
      pmod F (pmul F U (norm [sup.getD j 0, 1])) G = [1] := by
  have hmem := getD_mem_of_lt hj
  have hαlt := hsup _ hmem
  obtain ⟨S, hok, hS, -, -, hp⟩ := M.synd_spec hG hG1 v hsup hroot
  obtain ⟨T, hTok, hT, hTw, -, hTp⟩ := M.synd_spec hG hG1 (v ^^^ 2 ^ j) hsup hroot
  obtain ⟨U, -, hU, -, hUd, hUp⟩ := M.pinvmod_linear hG hG1 hαlt (hroot _ hmem)
  have hTeq : T = padd S U := by
    refine M.poly_injective hT (inField_padd hS hU) hTw (padd_wf S U) ?_
    rw [hTp, syndPoly_xor, M.syndPoly_two_pow hj, poly_padd, hp, hUp]
  refine ⟨S, U, hok, hTeq ▸ hTok, hU, hUd, ?_⟩
  have heval : (M.poly G).eval (M.val (sup.getD j 0)) ≠ 0 := by
    rw [← M.val_peval G hαlt, Ne, M.val_eq_zero_iff (M.peval_lt hG _)]
    exact hroot _ hmem
  rw [M.pmod_eq_one_iff hG hG1 (M.inField_pmul _ _), M.poly_pmul U (M.inField_linear hαlt), hUp, poly_linear]
  exact M.dvd_entry_mul heval

end Modulus

end FieldModel

theorem bind_of_ok {α β : Type} {x : Except ErrCode α} {a : α} {f : α → Except ErrCode β} (h : x = .ok a) : x >>= f = f a := by
  rw [h, except_ok_bind]

/-- The support in use of a Goppa polynomial: field elements that are no roots. -/
theorem goppaOk_support {s : State} {g : Poly} (h : s.GoppaOk g) :
    (∀ α ∈ s.support, α < 2 ^ s.field.m) ∧ ∀ α ∈ s.support, peval s.field g α ≠ 0 := by
  obtain ⟨-, hsup, -, hroot⟩ := h
  exact ⟨(forall_mem_support s fun α => α < 2 ^ s.field.m).2 hsup, (forall_mem_support s fun α => peval s.field g α ≠ 0).2 hroot⟩

theorem support_getD (s : State) {j : Nat} (hj : j < s.cfgN.toNat) : s.support.getD j 0 = Memory.read s.sup j := by
  rw [← support_getElem s hj, List.getD_eq_getElem?_getD, List.getElem?_eq_getElem (by rwa [support_length]), Option.getD_some]

/-- The checks of SYND and PATTERSON pass for a received vector and a Goppa polynomial (44_goppa.md R217, R222). -/
theorem receivedChecks {s : State} {b : MReg} {c : PReg} (hN : s.LengthOk) (hr : s.Received s.m[b]) (hg : s.GoppaOk s.p[c])
    {f : Unit → Except ErrCode State} :
    (require (checkN s) .badN >>= fun _ => require (isReceived s s.m[b]) .badLength >>= fun _ => goppaPre s s.p[c] >>= f) = f () :=
  (check_passes ((checkN_iff s).2 hN)).trans ((check_passes ((isReceived_iff s _).2 hr)).trans (bind_of_ok (goppaPre_ok hg)))

/-- Settles O53: the syndrome is a sum over the positions in `K[X]`. -/
theorem syndWritesSyndrome : Obligations.SyndWritesSyndrome := by
  intro s a b c hs hN hg
  obtain ⟨K, _, ⟨M⟩⟩ := configured_fieldModel hs
  have hG := (polyInField_iff s s.p[c]).1 hg.1
  have hG1 : 1 ≤ deg s.p[c] := hg.2.2.1
  obtain ⟨hsup, hroot⟩ := goppaOk_support hg
  refine ⟨fun hr => ?_, fun v j _ hj _ => ?_⟩
  · obtain ⟨S, hok, hS, hw, hd, hp⟩ := M.synd_spec hG hG1 (s.m[b].rowAt 0) hsup hroot
    obtain ⟨hreg, honly⟩ := setP_onlyP hs a hS hw (hd.trans (deg_register_lt hs c))
    refine ⟨_, exec_completes rfl rfl hs.2 ((receivedChecks hN hr hg).trans (bind_of_ok hok)), honly, ?_, ?_, ?_, fun h0 => ?_⟩
    · rw [hreg, polyInField_iff]
      exact hS
    · rw [hreg]
      exact hok
    · rw [hreg]
      exact hd
    · rw [hreg, ← M.poly_eq_zero_iff_nil hS hw, hp, h0, M.syndPoly_zero]
  · obtain ⟨S, U, hS, hSU, hU, hUd, hinv⟩ := M.synd_xor_two_pow hG hG1 v hsup hroot (j := j) (by rwa [support_length])
    rw [support_getD s hj] at hinv
    exact ⟨S, U, hS, hSU, (polyInField_iff s U).2 hU, hUd, hinv⟩

end Sys2Proof.Machine
end

section
/-! PROOFS. The parity-check matrix (44_goppa.md R213): its bits, PCHECK, and the syndrome it computes (R214). -/

namespace Sys2Proof.Machine

open scoped Polynomial

/-! ## The rows of the matrix -/

/-- Entry `i·m + k` of a list of blocks of length `m`. -/
theorem getD_flatMap_range {f : Nat → List Nat} {m : Nat} (hlen : ∀ i, (f i).length = m) {t i k : Nat} (hi : i < t) (hk : k < m) :
    ((List.range t).flatMap f).getD (i * m + k) 0 = (f i).getD k 0 := by
  have hall (t : Nat) : ((List.range t).flatMap f).length = t * m := by simp [List.length_flatMap, hlen]
  induction t with
  | zero => omega
  | succ t ih =>
    rw [List.range_succ, List.flatMap_append, List.getD_eq_getElem?_getD]
    obtain hi | rfl := Nat.lt_succ_iff_lt_or_eq.1 hi
    · have hlt : i * m + k < t * m := by
        have := Nat.mul_le_mul_right m (show i + 1 ≤ t from hi)
        rw [Nat.succ_mul] at this
        omega
      rw [List.getElem?_append_left (by rwa [hall]), ← List.getD_eq_getElem?_getD, ih hi]
    · rw [List.getElem?_append_right (by rw [hall]; omega), hall, Nat.add_sub_cancel_left, List.flatMap_singleton,
        List.getD_eq_getElem?_getD]

/-- Entry `(i, j)` of the parity-check matrix over the field, in the form of R213. -/
def hCoeff (F : Gf) (g : Poly) (i α : Nat) : Nat := hEntry F g (deg g).toNat i α (ginv F (peval F g α))

/-- The matrix bit by bit. -/
theorem bit_pcheckmat (F : Gf) (g : Poly) (sup : List Nat) {i k j : Nat} (hi : i < (deg g).toNat) (hk : k < F.m)
    (hj : j < sup.length) : (pcheckmat F g sup).bit (i * F.m + k) j = (hCoeff F g i (sup.getD j 0)).testBit k := by
  have hrow : (pcheckmat F g sup).rowAt (i * F.m + k) = packBits (sup.map fun α => (hCoeff F g i α).testBit k) := by
    rw [Mat.rowAt, pcheckmat, getD_flatMap_range (by simp) hi hk]
    simp [hk, Function.comp_def, hCoeff]
  rw [Mat.bit, hrow, testBit_packBits]
  simp [hj]

theorem pcheckmat_lt (F : Gf) (g : Poly) (sup : List Nat) : ∀ r ∈ (pcheckmat F g sup).row, r < 2 ^ (pcheckmat F g sup).cols := by
  intro r hr
  obtain ⟨i, -, hr⟩ := List.mem_flatMap.1 hr
  obtain ⟨k, -, rfl⟩ := List.mem_map.1 hr
  exact (packBits_lt _).trans_eq (by simp)

theorem hEntry_eq_xorSum (F : Gf) (g : Poly) (t i α y : Nat) :
    hEntry F g t i α y = xorSum (i + 1) fun l => gmul F (gmul F (coeff g (t - i + l)) (gpow F α l)) y := rfl

/-- Settles O52: the bits of the matrix, with the power by its recursion. -/
theorem pcheckWritesParityCheckMatrix : Obligations.PcheckWritesParityCheckMatrix := by
  intro s a b hs hN hg F g t
  obtain ⟨K, _, ⟨M⟩⟩ := configured_fieldModel hs
  have hchecks {f : Unit → Except ErrCode State} : (require (checkN s) .badN >>= fun _ => goppaPre s s.p[b] >>= f) = f () :=
    (check_passes ((checkN_iff s).2 hN)).trans (bind_of_ok (goppaPre_ok hg))
  refine ⟨fun hcap => ?_, fun hcap => ?_⟩
  · obtain ⟨hm, honly⟩ := setM_onlyM s a (pcheckmat_lt F g s.support)
    refine ⟨_, exec_completes rfl rfl hs.2 (hchecks.trans (check_passes (decide_eq_true hcap))), honly, ?_, ?_,
      fun i k j hi hk hj => ?_⟩
    · rw [hm]
      exact pcheckmat_rows F g s.support
    · rw [hm, pcheckmat_cols, support_length]
    · have hα : Memory.read s.sup j < 2 ^ F.m := hg.2.1 j hj
      rw [hm, bit_pcheckmat F g s.support hi hk (by rwa [support_length]), support_getD s hj, hCoeff, hEntry_eq_xorSum]
      exact congrArg (Nat.testBit · k) (xorSum_congr fun l _ => by rw [M.gpow_eq_powByRule hα])
  · exact exec_fails rfl rfl (fun _ => hs.2) (hchecks.trans (check_fails (decide_eq_false (not_le.2 hcap))))

/-! ## The syndrome by the matrix -/

theorem testBit_xorSum (n : Nat) (q : Nat → Nat) (k : Nat) : (xorSum n q).testBit k = xorBits n fun j => (q j).testBit k := by
  induction n with
  | zero => simp [xorSum, xorBits]
  | succ n ih => rw [xorSum_succ, xorBits_succ, Nat.testBit_xor, ih]

/-- Row `i` of `Hm · v`: a coefficient of the syndrome. -/
def hSum (F : Gf) (g : Poly) (sup : List Nat) (v i : Nat) : Nat :=
  xorSum sup.length fun j => if v.testBit j then hCoeff F g i (sup.getD j 0) else 0

/-- The rows `i·m` to `i·m + m − 1` of the binary matrix give the bits of row `i` over the field. -/
theorem testBit_hSum {F : Gf} {g : Poly} {sup : List Nat} {i k : Nat} (hi : i < (deg g).toNat) (hk : k < F.m) (v : Nat) :
    (hSum F g sup v i).testBit k = xorBits sup.length fun j => (pcheckmat F g sup).bit (i * F.m + k) j && v.testBit j := by
  rw [hSum, testBit_xorSum]
  apply bitOf_injective
  rw [bitOf_xorBits, bitOf_xorBits]
  refine Finset.sum_congr rfl fun j hj => ?_
  rw [bit_pcheckmat F g sup hi hk (Finset.mem_range.1 hj)]
  cases v.testBit j <;> simp

/-- Every row of the matrix is one of a block. -/
theorem forall_pcheckmat_row {F : Gf} {g : Poly} {sup : List Nat} {q : Nat → Prop} :
    (∀ r ∈ (pcheckmat F g sup).row, q r) ↔
      ∀ i k, i < (deg g).toNat → k < F.m → q ((pcheckmat F g sup).rowAt (i * F.m + k)) := by
  have hrows : (pcheckmat F g sup).row.length = (deg g).toNat * F.m := pcheckmat_rows F g sup
  constructor
  · intro h i k hi hk
    refine h _ (getD_mem_of_lt ?_)
    have := Nat.mul_le_mul_right F.m (show i + 1 ≤ (deg g).toNat from hi)
    rw [Nat.succ_mul] at this
    omega
  · intro h
    refine Mat.forall_mem_row fun l hl => ?_
    rw [pcheckmat_rows] at hl
    have hm : 0 < F.m := Nat.pos_of_mul_pos_left (Nat.zero_lt_of_lt hl)
    have := h (l / F.m) (l % F.m) (Nat.div_lt_of_lt_mul (by rwa [Nat.mul_comm])) (Nat.mod_lt _ hm)
    rwa [Nat.mul_comm, Nat.div_add_mod] at this

namespace FieldModel

variable {F : Gf} {K : Type} [Field K] (M : FieldModel F K)
include M

theorem hCoeff_lt (G : Poly) (i α : Nat) : hCoeff F G i α < 2 ^ F.m := by
  rw [hCoeff, hEntry_eq_xorSum]
  exact xorSum_lt fun l _ => M.gmul_lt _ _

theorem hSum_lt (G : Poly) (v : Nat) (sup : List Nat) (i : Nat) : hSum F G sup v i < 2 ^ F.m :=
  xorSum_lt fun j _ => by
    split
    · exact M.hCoeff_lt G _ _
    · exact Nat.two_pow_pos _

variable {G : Poly} (hG : InField F G)
include hG

/-- The entries of R213 are the coefficients of the inverse of `x + α`, counted from the top. -/
theorem val_hCoeff {α i : Nat} (hα : α < 2 ^ F.m) (hroot : peval F G α ≠ 0) (hi : i < (deg G).toNat) :
    M.val (hCoeff F G i α) = (M.entry G α).coeff ((deg G).toNat - 1 - i) := by
  have hpe := M.peval_lt hG α
  rw [entry, ← M.natDegree_poly hG, coeff_inverseAt _ _ (by rwa [M.natDegree_poly hG]), hCoeff, hEntry_eq_xorSum, M.val_xorSum]
  refine Finset.sum_congr rfl fun l _ => ?_
  rw [M.val_gmul _ (M.ginv_lt hpe), M.val_gmul _ (M.gpow_lt hα l), M.val_gpow hα, (M.val_ginv hpe).resolve_right hroot,
    M.val_peval G hα, coeff_poly, M.natDegree_poly hG]

theorem val_hSum (v : Nat) {sup : List Nat} (hsup : ∀ α ∈ sup, α < 2 ^ F.m) (hroot : ∀ α ∈ sup, peval F G α ≠ 0) {i : Nat}
    (hi : i < (deg G).toNat) : M.val (hSum F G sup v i) = (M.syndPoly G v sup).coeff ((deg G).toNat - 1 - i) := by
  rw [hSum, M.val_xorSum, syndPoly, Polynomial.finsetSum_coeff]
  refine Finset.sum_congr rfl fun j hj => ?_
  have hmem := getD_mem_of_lt (Finset.mem_range.1 hj)
  split
  · exact M.val_hCoeff hG (hsup _ hmem) (hroot _ hmem) hi
  · rw [M.val_zero, Polynomial.coeff_zero]

/-- The syndrome is 0 exactly when every coefficient is. -/
theorem synd_eq_nil_iff (hG1 : 1 ≤ deg G) (v : Nat) {sup : List Nat} (hsup : ∀ α ∈ sup, α < 2 ^ F.m)
    (hroot : ∀ α ∈ sup, peval F G α ≠ 0) : synd F G v sup = .ok [] ↔ ∀ i, i < (deg G).toNat → hSum F G sup v i = 0 := by
  obtain ⟨S, hok, hS, hw, hd, hp⟩ := M.synd_spec hG hG1 v hsup hroot
  rw [hok, Except.ok.injEq, ← M.poly_eq_zero_iff_nil hS hw]
  constructor
  · intro h i hi
    rw [← M.val_eq_zero_iff (M.hSum_lt G v sup i), M.val_hSum hG v hsup hroot hi, ← hp, h, Polynomial.coeff_zero]
  · intro h
    ext n
    rw [Polynomial.coeff_zero]
    by_cases hn : n < (deg G).toNat
    · have hi : (deg G).toNat - 1 - n < (deg G).toNat := by omega
      have := M.val_hSum hG v hsup hroot hi
      rw [h _ hi, M.val_zero, ← hp, show (deg G).toNat - 1 - ((deg G).toNat - 1 - n) = n by omega] at this
      exact this.symm
    · rw [coeff_poly, coeff_of_deg_lt (by omega), M.val_zero]

end FieldModel

theorem eq_zero_iff_testBit {x n : Nat} (hx : x < 2 ^ n) : x = 0 ↔ ∀ k, k < n → x.testBit k = false := by
  constructor
  · rintro rfl k -
    exact Nat.zero_testBit k
  · intro h
    refine eq_of_bitZ hx (Nat.two_pow_pos n) fun k hk => ?_
    rw [bitZ, h k hk, bitZ_zero]
    rfl

/-- Settles O54: a row over the field is 0 exactly when its `m` bits are, and the rows are the coefficients of the syndrome. -/
theorem parityCheckIsSyndrome : Obligations.ParityCheckIsSyndrome := by
  intro F mmax v g sup hF hg hsup hg1 hroot _
  obtain ⟨K, _, ⟨M⟩⟩ := exists_fieldModel hF
  have hG := allInF_iff_inField.1 hg
  rw [M.synd_eq_nil_iff hG hg1 v ((allInF_iff F sup).1 hsup) hroot, forall_pcheckmat_row]
  constructor
  · intro h i k hi hk
    exact (testBit_hSum hi hk v).symm.trans (by rw [h i hi, Nat.zero_testBit])
  · intro h i hi
    rw [eq_zero_iff_testBit (M.hSum_lt g v sup i)]
    exact fun k hk => (testBit_hSum hi hk v).trans (h i k hi hk)

end Sys2Proof.Machine
end

section
/-! PROOFS. Lattice basis reduction (44_goppa.md R218): the invariant of its rounds, and LATRED. -/

namespace Sys2Proof.Machine

open scoped Polynomial

/-! ## Degrees of sums and quotients -/

theorem deg_padd_of_lt {A B : Poly} (h : deg A < deg B) : deg (padd A B) = deg B := by
  have hA := neg_one_le_deg A
  have hle : deg (padd A B) < deg B + 1 := deg_padd_lt (by omega) (by omega)
  have hcoeff : coeff (padd A B) (deg B).toNat ≠ 0 := by
    rw [coeff_padd, coeff_of_deg_lt (by omega), Nat.zero_xor]
    exact coeff_deg_ne_zero (by omega)
  have hge : ¬ deg (padd A B) < deg B := fun hlt => hcoeff (coeff_of_deg_lt (by omega))
  omega

namespace FieldModel

variable {F : Gf} {K : Type} [Field K] (M : FieldModel F K)
include M

theorem deg_eq_of_poly_eq {A B : Poly} (hA : InField F A) (hB : InField F B) (h : M.poly A = M.poly B) : deg A = deg B := by
  have h1 := M.degree_lt_degree_iff hA hB
  have h2 := M.degree_lt_degree_iff hB hA
  rw [h, lt_self_iff_false, false_iff] at h1 h2
  omega

/-- The quotient takes the difference of the degrees. -/
theorem deg_pdiv {A B : Poly} (hA : InField F A) (hB : InField F B) (hB0 : 0 ≤ deg B) (hle : deg B ≤ deg A) :
    deg (pdivmod F A B).1 + deg B = deg A := by
  obtain ⟨hQ, hR, hlt, hdiv⟩ := M.pdivmod_spec hA hB hB0
  have hsum : M.poly (padd (pdivmod F A B).2 (pmul F (pdivmod F A B).1 B)) = M.poly A := by
    rw [poly_padd, M.poly_pmul _ hB, ← hdiv, add_comm]
  have hdeg := M.deg_eq_of_poly_eq (inField_padd hR (M.inField_pmul _ _)) hA hsum
  by_cases hQ0 : 0 ≤ deg (pdivmod F A B).1
  · have hprod := M.deg_pmul hQ hB hQ0 hB0
    rw [deg_padd_of_lt (by omega), hprod] at hdeg
    exact hdeg
  · have hz : M.poly (pdivmod F A B).1 = 0 := (M.poly_eq_zero_iff hQ).2 (by
      have := neg_one_le_deg (pdivmod F A B).1
      omega)
    rw [hz, zero_mul, zero_add] at hdiv
    have := M.deg_eq_of_poly_eq hR hA hdiv
    omega

end FieldModel

/-! ## The rounds -/

/-- What holds of the pairs `(a0, b0)` and `(a, b)` before a round of `latred` for `τ` and `g` (44_goppa.md R218): both are congruent to
`τ`, the degrees run against each other, and the determinant is `g`. -/
structure LatticePair {F : Gf} {K : Type} [Field K] (M : FieldModel F K) (τ g a0 b0 a b : Poly) : Prop where
  fa0 : InField F a0
  fb0 : InField F b0
  fa : InField F a
  fb : InField F b
  wa : Memory.wf a
  wb : Memory.wf b
  cong0 : M.poly g ∣ M.poly a0 - M.poly b0 * M.poly τ
  cong : M.poly g ∣ M.poly a - M.poly b * M.poly τ
  det : M.poly a0 * M.poly b + M.poly a * M.poly b0 = M.poly g
  deg_a : deg a < deg a0
  deg_b : deg b0 < deg b
  sum : deg a0 + deg b = deg g
  long : deg g < 2 * deg a0

/-- What `latred` answers. -/
structure ShortPair {F : Gf} {K : Type} [Field K] (M : FieldModel F K) (τ g a b : Poly) : Prop where
  fa : InField F a
  fb : InField F b
  wa : Memory.wf a
  wb : Memory.wf b
  cong : M.poly g ∣ M.poly a - M.poly b * M.poly τ
  deg_a : 2 * deg a ≤ deg g
  deg_b : 2 * deg b + 1 ≤ deg g
  b_ne : 0 ≤ deg b
  common : ∀ d, d ∣ M.poly a → d ∣ M.poly b → d ∣ M.poly g

section Rounds

variable {F : Gf} {K : Type} [Field K] {M : FieldModel F K} {τ g a0 b0 a b : Poly}

/-- The pair is short as soon as `a` is. -/
theorem LatticePair.short (h : LatticePair M τ g a0 b0 a b) (ha : 2 * deg a ≤ deg g) : ShortPair M τ g a b where
  fa := h.fa
  fb := h.fb
  wa := h.wa
  wb := h.wb
  cong := h.cong
  deg_a := ha
  deg_b := by
    have h1 := h.sum
    have h2 := h.long
    omega
  b_ne := by
    have h1 := h.deg_b
    have h2 := neg_one_le_deg b0
    omega
  common := fun d hda hdb => by
    rw [← h.det]
    exact (hdb.mul_left _).add (hda.mul_right _)

theorem LatticePair.nd_le_iff (h : LatticePair M τ g a0 b0 a b) : nd a b ≤ deg g ↔ 2 * deg a ≤ deg g := by
  have h1 := h.sum
  have h2 := h.long
  rw [nd]
  omega

/-- One round. -/
theorem LatticePair.round (h : LatticePair M τ g a0 b0 a b) (ha : deg g < 2 * deg a) :
    LatticePair M τ g a b (pdivmod F a0 a).2 (padd b0 (pmul F (pdivmod F a0 a).1 b)) := by
  obtain ⟨fa0, fb0, fa, fb, wa, wb, cong0, cong, det, hdega, hdegb, hsum, hlong⟩ := h
  have hb0 := neg_one_le_deg b0
  have hg0 : 0 ≤ deg g := by omega
  have ha0 : 0 ≤ deg a := by omega
  obtain ⟨fq, fr, hrlt, hdiv⟩ := M.pdivmod_spec fa0 fa ha0
  have hq := M.deg_pdiv fa0 fa ha0 hdega.le
  have hprod := M.deg_pmul fq fb (by omega) (by omega)
  have hnew : deg (padd b0 (pmul F (pdivmod F a0 a).1 b)) = deg (pmul F (pdivmod F a0 a).1 b) := deg_padd_of_lt (by omega)
  have htwo : (2 : K[X]) = 0 := by
    have := M.charTwo
    exact CharTwo.two_eq_zero
  refine ⟨fa, fb, fr, inField_padd fb0 (M.inField_pmul _ _), pmod_wf F a0 a, padd_wf _ _, cong, ?_, ?_, hrlt, by omega, by omega, ha⟩
  · obtain ⟨x, hx⟩ := cong0
    obtain ⟨y, hy⟩ := cong
    refine ⟨x - M.poly (pdivmod F a0 a).1 * y, ?_⟩
    rw [M.poly_padd, M.poly_pmul _ fb]
    linear_combination hdiv + hx - M.poly (pdivmod F a0 a).1 * hy - M.poly (pdivmod F a0 a).1 * M.poly b * M.poly τ * htwo
  · rw [M.poly_padd, M.poly_pmul _ fb]
    linear_combination det + M.poly b * hdiv

/-- The rounds end with a short pair before the fuel does. -/
theorem LatticePair.loop (n : Nat) (h : LatticePair M τ g a0 b0 a b) (hn : deg a < n) :
    ShortPair M τ g (latredLoop F (deg g) n a0 b0 a b).1 (latredLoop F (deg g) n a0 b0 a b).2 := by
  induction n generalizing a0 b0 a b with
  | zero =>
    have h1 := h.sum
    have h2 := h.long
    have h3 := h.deg_b
    have h4 := neg_one_le_deg b0
    exact h.short (by omega)
  | succ n ih =>
    rw [latredLoop]
    split
    · rename_i hnd
      exact h.short (h.nd_le_iff.1 hnd)
    · rename_i hnd
      have hround := h.round (not_le.1 (mt h.nd_le_iff.2 hnd))
      exact ih hround (by
        have := hround.deg_a
        omega)

end Rounds

namespace FieldModel

variable {F : Gf} {K : Type} [Field K] (M : FieldModel F K)

/-- The start of the rounds: `(g, 0)` and `(τ mod g, 1)`. -/
theorem latticePair_start {τ g : Poly} (hτ : InField F τ) (hg : InField F g) (hg1 : 1 ≤ deg g) :
    LatticePair M τ g (norm g) [] (pmod F τ g) [1] := by
  have hone : deg [1] = 0 := rfl
  refine ⟨inField_norm hg, inField_nil F, M.inField_pmod hτ hg (by omega), M.inField_one, pmod_wf F τ g, by decide, ?_, ?_, ?_, ?_,
    by decide, ?_, ?_⟩
  · rw [poly_norm, poly_nil, zero_mul, sub_zero]
  · rw [poly_one, one_mul]
    exact M.dvd_pmod_sub hτ hg (by omega)
  · rw [poly_norm, poly_one, poly_nil, mul_one, mul_zero, add_zero]
  · rw [deg_norm]
    exact M.deg_pmod_lt hτ hg (by omega)
  · rw [deg_norm, hone, add_zero]
  · rw [deg_norm]
    omega

theorem latred_spec {τ g : Poly} (hτ : InField F τ) (hg : InField F g) (hg1 : 1 ≤ deg g) :
    ShortPair M τ g (latred F τ g).1 (latred F τ g).2 := by
  refine (M.latticePair_start hτ hg hg1).loop _ ?_
  have := M.deg_pmod_lt hτ hg (by omega)
  push_cast
  omega

end FieldModel

/-- Settles O55: the invariant `LatticePair` of the rounds, which end in a `ShortPair`. -/
theorem latredWritesShortPair : Obligations.LatredWritesShortPair := by
  intro s a b c d hs hab
  have hne : (a != b) = true := by simpa using hab
  refine ⟨fun hc hd => ?_, fun h => ?_⟩
  · rw [polyInField_iff] at hc hd
    have hrange {f : Unit → Except ErrCode State} : (require (allInF s.field s.p[c]) .operandRange >>= fun _ =>
        require (allInF s.field s.p[d]) .operandRange >>= f) = f () :=
      (check_passes (allInF_iff_inField.2 hc)).trans (check_passes (allInF_iff_inField.2 hd))
    refine ⟨fun hd1 => ?_, fun hd1 => ?_⟩
    · obtain ⟨K, _, ⟨M⟩⟩ := configured_fieldModel hs
      have hdd := deg_register_lt hs d
      obtain ⟨fa, fb, wa, wb, cong, ha, hb, hb0, -⟩ := M.latred_spec hc hd hd1
      obtain ⟨hpa, hpb, honly⟩ := setP_setP_onlyPP hs hab fa wa (by omega) fb wb (by omega)
      refine ⟨_, exec_completes rfl hne hs.2 (hrange.trans (check_passes (decide_eq_true hd1))), honly, ?_⟩
      rw [hpa, hpb, polyInField_iff, polyInField_iff]
      refine ⟨fa, fb, rfl, ?_, ha, hb, fun hnil => ?_⟩
      · rw [M.pmod_eq_pmod_iff (M.inField_pmul _ _) fa hd (by omega), M.poly_pmul _ hc, ← dvd_neg, neg_sub]
        exact cong
      · rw [hnil] at hb0
        exact absurd hb0 (by decide)
    · exact exec_fails rfl hne (fun _ => hs.2) (hrange.trans (check_fails (decide_eq_false (by omega))))
  · by_cases hc : s.PolyInField s.p[c]
    · have hd : allInF s.field s.p[d] = false := allInF_eq_false (h.resolve_left (not_not.2 hc))
      exact exec_fails rfl hne (fun _ => hs.2) ((check_passes ((allInF_iff _ _).2 hc)).trans (check_fails hd))
    · exact exec_fails rfl hne (fun _ => hs.2) (check_fails (allInF_eq_false hc))

end Sys2Proof.Machine
end

section
/-! PROOFS. Patterson decoding (44_goppa.md R220): what a successful one answers, and PATTERSON and DECODE as writes of it. -/

namespace Sys2Proof.Machine

open scoped Polynomial

/-! ## The error locator -/

namespace FieldModel

variable {F : Gf} {K : Type} [Field K] (M : FieldModel F K)
include M

/-- The degree of a square. -/
theorem deg_square_lt {A : Poly} (hA : InField F A) {n : Int} (hn : 0 ≤ n) (h : 2 * deg A < n) : deg (pmul F A A) < n := by
  by_cases hA0 : 0 ≤ deg A
  · rw [M.deg_pmul hA hA hA0 hA0]
    omega
  · have hz : M.poly A = 0 := (M.poly_eq_zero_iff hA).2 (by
      have := neg_one_le_deg A
      omega)
    have hsq : deg (pmul F A A) = -1 := (M.poly_eq_zero_iff (M.inField_pmul A A)).1 (by rw [M.poly_pmul A hA, hz, zero_mul])
    omega

omit M in
theorem deg_pshift_one_lt {A : Poly} {n : Int} (hn : 0 ≤ n) (h : deg A + 1 < n) : deg (pshift 1 A) < n := by
  obtain ⟨k, rfl⟩ := Int.eq_ofNat_of_zero_le hn
  refine deg_lt_iff_coeff.2 fun i hi => ?_
  rw [coeff_pshift]
  split
  · rfl
  · exact coeff_of_deg_lt (by omega)

theorem inField_locator (τ g : Poly) : InField F (locator F τ g) :=
  inField_padd (M.inField_pmul _ _) (inField_pshift 1 (M.inField_pmul _ _))

omit M in
theorem locator_wf (τ g : Poly) : Memory.wf (locator F τ g) := padd_wf _ _

theorem poly_locator {τ g : Poly} (h : ShortPair M τ g (latred F τ g).1 (latred F τ g).2) :
    M.poly (locator F τ g) = M.poly (latred F τ g).1 ^ 2 + Polynomial.X * M.poly (latred F τ g).2 ^ 2 := by
  rw [locator, poly_padd, poly_pshift, M.poly_pmul _ h.fa, M.poly_pmul _ h.fb, pow_one, pow_two, pow_two]

/-- The bounds of the short pair bound the locator. -/
theorem deg_locator_le {τ g : Poly} (h : ShortPair M τ g (latred F τ g).1 (latred F τ g).2) :
    deg (locator F τ g) ≤ deg g := by
  obtain ⟨fa, fb, -, -, -, ha, hb, hb0, -⟩ := h
  have h1 := M.deg_square_lt fa (n := deg g + 1) (by omega) (by omega)
  have h2 := M.deg_square_lt fb (n := deg g) (by omega) (by omega)
  have h3 := deg_pshift_one_lt (A := pmul F (latred F τ g).2 (latred F τ g).2) (n := deg g + 1) (by omega) (by omega)
  have : deg (locator F τ g) < deg g + 1 := deg_padd_lt h1 h3
  omega

theorem inField_patTau {S G τ : Poly} (hS : InField F S) (hG : InField F G) (hG1 : 1 ≤ deg G) (h : patTau F S G = .ok τ) :
    InField F τ := by
  rw [patTau_eq] at h
  obtain ⟨U, hok, hU, -⟩ | ⟨herr, -⟩ := M.pinvmod_spec hS hG hG1
  · rw [hok, except_ok_bind] at h
    obtain ⟨T, hT, hTF, -⟩ := M.psqrtmod_spec (M.inField_pmod (inField_padd hU M.inField_polyX) hG (by omega)) hG hG1
    rw [hT] at h
    exact Except.ok.inj h ▸ hTF
  · rw [herr] at h
    exact nomatch h

end FieldModel

/-! ## A successful decoding -/

/-- What a successful decoding of `r` answers: the roots of the locator are flipped and as many as its degree. -/
structure Corrected (F : Gf) (G : Poly) (r : Nat) (sup : List Nat) (R : Decoded) : Prop where
  c_eq : R.c = r ^^^ packBits (rootBits F R.σ sup)
  count_eq : R.count = countTrue (rootBits F R.σ sup)
  count_deg : (R.count : Int) = deg R.σ
  field : InField F R.σ
  wf : Memory.wf R.σ
  deg_le : deg R.σ ≤ deg G

theorem peval_one (F : Gf) (α : Nat) : peval F [1] α = 1 := by simp [peval, gadd]

theorem rootBits_one (F : Gf) (sup : List Nat) : rootBits F [1] sup = sup.map fun _ => false :=
  List.map_congr_left fun α _ => by rw [peval_one]; rfl

theorem packBits_false (sup : List Nat) : packBits (sup.map fun _ => false) = 0 :=
  Nat.eq_of_testBit_eq fun j => by
    rw [testBit_packBits, List.getD_eq_getElem?_getD, List.getElem?_map]
    cases sup[j]? <;> simp

theorem countTrue_false (sup : List Nat) : countTrue (sup.map fun _ => false) = 0 := by simp [countTrue]

/-- The answer on a zero syndrome passed. -/
theorem corrected_zero {F : Gf} {G : Poly} (h1 : 1 < 2 ^ F.m) (hG1 : 1 ≤ deg G) (r : Nat) (sup : List Nat) :
    Corrected F G r sup { c := r, σ := [1], count := 0 } where
  c_eq := by rw [rootBits_one, packBits_false, Nat.xor_zero]
  count_eq := by rw [rootBits_one, countTrue_false]
  count_deg := rfl
  field := inField_iff.2 fun c hc => by
    obtain rfl : c = 1 := by simpa using hc
    exact h1
  wf := show Memory.wf [1] by decide
  deg_le := show (0 : Int) ≤ deg G by omega

theorem FieldModel.patterson_spec {F : Gf} {K : Type} [Field K] (M : FieldModel F K) {G : Poly} (hG : InField F G) (hG1 : 1 ≤ deg G)
    {sup : List Nat} (hsup : ∀ α ∈ sup, α < 2 ^ F.m) (hroot : ∀ α ∈ sup, peval F G α ≠ 0) {r : Nat} {zs : Bool} {R : Decoded}
    (h : patterson F G r sup zs = .ok R) : Corrected F G r sup R := by
  obtain ⟨S, hok, hS, -⟩ := M.synd_spec hG hG1 r hsup hroot
  rw [patterson_eq, hok, except_ok_bind] at h
  by_cases hz : isZero S = true
  · rw [if_pos hz] at h
    cases zs with
    | false => exact nomatch h
    | true =>
      obtain rfl := Except.ok.inj h
      exact corrected_zero M.one_lt hG1 r sup
  · rw [if_neg hz] at h
    cases htau : patTau F S G with
    | error k =>
      rw [htau] at h
      exact nomatch h
    | ok τ =>
      rw [htau, except_ok_bind] at h
      split at h
      · rename_i hcount
        obtain rfl := Except.ok.inj h
        exact ⟨rfl, rfl, hcount, M.inField_locator τ G, FieldModel.locator_wf τ G,
          M.deg_locator_le (M.latred_spec (M.inField_patTau hS hG hG1 htau) hG hG1)⟩
      · exact nomatch h

/-- A decoding of a zero syndrome. -/
theorem patterson_of_synd_nil {F : Gf} {G : Poly} {r : Nat} {sup : List Nat} (h : synd F G r sup = .ok []) (zs : Bool) :
    patterson F G r sup zs = if zs then .ok { c := r, σ := [1], count := 0 } else .error .zeroSyndrome := by
  rw [patterson_eq, h, except_ok_bind]
  rfl

/-! ## The commands -/

section Commands

variable {s : State} (hs : s.Configured) (hN : s.LengthOk)

/-- The `1 × N` matrix of a packed vector. -/
def vectorOf (s : State) (v : Nat) : Mat := { cols := s.cfgN.toNat, row := [v] }

theorem vectorOf_lt {v : Nat} (h : v < 2 ^ s.cfgN.toNat) : ∀ r ∈ (vectorOf s v).row, r < 2 ^ (vectorOf s v).cols := by
  intro r hr
  obtain rfl : r = v := by simpa [vectorOf] using hr
  exact h

/-- A received vector is its row. -/
theorem received_eq {r : Mat} (h : s.Received r) : r = vectorOf s (r.rowAt 0) := by
  obtain ⟨c, rows⟩ := r
  obtain ⟨hr, hc⟩ := h
  obtain ⟨v, rfl⟩ := List.length_eq_one_iff.1 hr
  obtain rfl : c = s.cfgN.toNat := hc
  rfl

include hs in
theorem received_lt {b : MReg} (h : s.Received s.m[b]) : s.m[b].rowAt 0 < 2 ^ s.cfgN.toNat := by
  obtain ⟨-, -, -, hlt⟩ := inv_matOk hs.1 b
  exact h.2 ▸ Mat.rowAt_lt hlt 0

include hs in
/-- A decoding of the received vector is a correction of it. -/
theorem corrected_of_ok {b : MReg} {c : PReg} (hg : s.GoppaOk s.p[c]) {R : Decoded}
    (h : patterson s.field s.p[c] (s.m[b].rowAt 0) s.support s.sampledZs = .ok R) :
    Corrected s.field s.p[c] (s.m[b].rowAt 0) s.support R := by
  obtain ⟨K, _, ⟨M⟩⟩ := configured_fieldModel hs
  obtain ⟨hsup, hroot⟩ := goppaOk_support hg
  exact M.patterson_spec ((polyInField_iff s s.p[c]).1 hg.1) hg.2.2.1 hsup hroot h

theorem Corrected.c_lt {G : Poly} {r : Nat} {R : Decoded} (h : Corrected s.field G r s.support R) (hr : r < 2 ^ s.cfgN.toNat) :
    R.c < 2 ^ s.cfgN.toNat := by
  rw [h.c_eq]
  exact Nat.xor_lt_two_pow hr ((packBits_lt _).trans_eq (by rw [rootBits_length, support_length]))

theorem Corrected.count_le {G : Poly} {r : Nat} {R : Decoded} (h : Corrected s.field G r s.support R) :
    R.count ≤ s.cfgN.toNat := h.count_eq ▸ countTrue_rootBits_le s R.σ

theorem Corrected.toNat_count {G : Poly} {r : Nat} {R : Decoded} (h : Corrected s.field G r s.support R) :
    (BitVec.ofNat 32 R.count).toNat = R.count := Nat.mod_eq_of_lt (h.count_le.trans_lt s.cfgN.isLt)

include hN in
theorem decodeChecks {b : MReg} {c : PReg} {d : MReg} (hr : s.Received s.m[b]) (hg : s.GoppaOk s.p[c])
    (hd : s.m[d].cols = s.cfgN.toNat) (hk : s.m[d].rows ≤ s.caps.cmax) {f : Unit → Except ErrCode State} :
    (require (checkN s) .badN >>= fun _ => require (isReceived s s.m[b]) .badLength >>= fun _ =>
      require (s.m[d].cols == s.codeLength) .dimMismatch >>= fun _ => require (s.m[d].rows ≤ s.caps.cmax) .capacity >>= fun _ =>
      goppaPre s s.p[c] >>= f) = f () := by
  have hcols : (s.m[d].cols == s.codeLength) = true := beq_iff_eq.2 hd
  exact (check_passes ((checkN_iff s).2 hN)).trans ((check_passes ((isReceived_iff s _).2 hr)).trans
    ((check_passes hcols).trans ((check_passes (decide_eq_true hk)).trans (bind_of_ok (goppaPre_ok hg)))))

include hs hN

/-- PATTERSON after a successful decoding (44_goppa.md R222). -/
theorem exec_patterson_ok {a b : MReg} {c d : PReg} (hr : s.Received s.m[b]) (hg : s.GoppaOk s.p[c]) {R : Decoded}
    (h : patterson s.field s.p[c] (s.m[b].rowAt 0) s.support s.sampledZs = .ok R) :
    exec (.patterson a b c d) s = .next (State.finish
      { s with m := s.m.set a (vectorOf s R.c), p := s.p.set d R.σ, resCount := BitVec.ofNat 32 R.count }) := by
  have hR := corrected_of_ok hs hg h
  have hst := storedPoly_of_inField hs hR.field hR.wf (hR.deg_le.trans_lt (deg_register_lt hs c))
  have hexec := exec_completes (i := .patterson a b c d) rfl rfl hs.2 ((receivedChecks hN hr hg).trans (bind_of_ok h))
  have hm : s.setM a { cols := s.codeLength, row := [R.c] } = { s with m := s.m.set a (vectorOf s R.c) } :=
    setM_eq s a (vectorOf_lt (hR.c_lt (received_lt hs hr)))
  rw [hexec, hm]
  simp only [State.setCount, State.setP, hst]

theorem exec_patterson_error {a b : MReg} {c d : PReg} (hr : s.Received s.m[b]) (hg : s.GoppaOk s.p[c]) {k : ErrCode}
    (h : patterson s.field s.p[c] (s.m[b].rowAt 0) s.support s.sampledZs = .error k) :
    FailsWith (.patterson a b c d) s k :=
  exec_fails rfl rfl (fun _ => hs.2) ((receivedChecks hN hr hg).trans (by rw [h]; rfl))

/-- DECODE after a successful decoding (44_goppa.md R226). -/
theorem exec_decode_ok {a b : MReg} {c : PReg} {d e : MReg} (hae : a ≠ e) (hr : s.Received s.m[b]) (hg : s.GoppaOk s.p[c])
    (hd : s.m[d].cols = s.cfgN.toNat) (hk : s.m[d].rows ≤ s.caps.cmax) {R : Decoded}
    (h : patterson s.field s.p[c] (s.m[b].rowAt 0) s.support s.sampledZs = .ok R) :
    exec (.decode a b c d e) s = .next (State.finish
      { s with
        m := (s.m.set a (solve s.m[d] R.c).1).set e (vectorOf s R.c)
        resCount := BitVec.ofNat 32 R.count
        resRank := BitVec.ofNat 32 (solve s.m[d] R.c).2 }) := by
  have hne : (a != e) = true := by simpa using hae
  have hR := corrected_of_ok hs hg h
  have hexec := exec_completes (i := .decode a b c d e) rfl hne hs.2 ((decodeChecks hN hr hg hd hk).trans (bind_of_ok h))
  have hma : s.setM a (solve s.m[d] R.c).1 = { s with m := s.m.set a (solve s.m[d] R.c).1 } := setM_eq s a (rowVector_lt _)
  have hme (u : State) : u.setM e { cols := s.codeLength, row := [R.c] } = { u with m := u.m.set e (vectorOf s R.c) } :=
    setM_eq u e (vectorOf_lt (hR.c_lt (received_lt hs hr)))
  rw [hexec, hma, hme]
  rfl

theorem exec_decode_error {a b : MReg} {c : PReg} {d e : MReg} (hae : a ≠ e) (hr : s.Received s.m[b]) (hg : s.GoppaOk s.p[c])
    (hd : s.m[d].cols = s.cfgN.toNat) (hk : s.m[d].rows ≤ s.caps.cmax) {k : ErrCode}
    (h : patterson s.field s.p[c] (s.m[b].rowAt 0) s.support s.sampledZs = .error k) :
    FailsWith (.decode a b c d e) s k := by
  have hne : (a != e) = true := by simpa using hae
  exact exec_fails rfl hne (fun _ => hs.2) ((decodeChecks hN hr hg hd hk).trans (by rw [h]; rfl))

end Commands

theorem getElem_set_set_m (s : State) {a e : MReg} (hae : a ≠ e) (A E : Mat) :
    ((s.m.set a A).set e E)[a] = A ∧ ((s.m.set a A).set e E)[e] = E := by
  have hne : e.val ≠ a.val := fun h => hae (Fin.ext h.symm)
  constructor
  · rw [Fin.getElem_fin, Vector.getElem_set_ne _ _ hne, Vector.getElem_set_self]
  · simp

/-- Settles O56: a zero syndrome leaves the vector or fails, by the sampled policy. -/
theorem zeroSyndromePolicy : Obligations.ZeroSyndromePolicy := by
  intro s a b c d k e w zs hs hN hr hg hpend hz
  have hpat := patterson_of_synd_nil hz s.sampledZs
  have hvec := received_eq hr
  have hzs := sampledZs_run hpend
  refine ⟨fun h => ?_, fun h => ?_, fun hae hcols hrows => ⟨fun h => ?_, fun h => ?_⟩⟩ <;> subst h
  · exact exec_patterson_error hs hN hr hg (hpat.trans (if_neg (by simp [hzs])))
  · refine ⟨_, exec_patterson_ok hs hN hr hg (hpat.trans (if_pos hzs)), ?_⟩
    rw [← hvec]
    rfl
  · exact exec_decode_error hs hN hae hr hg hcols hrows (hpat.trans (if_neg (by simp [hzs])))
  · refine ⟨_, exec_decode_ok hs hN hae hr hg hcols hrows (hpat.trans (if_pos hzs)), ?_⟩
    rw [← hvec]
    obtain ⟨hma, hme⟩ := getElem_set_set_m s hae (solve s.m[k] (s.m[b].rowAt 0)).1 s.m[b]
    refine ⟨hme, rfl, ?_⟩
    simp only [OnlyCompletes, State.finish, hma, hme]

/-- Settles O57: `FieldModel.patterson_spec` gives the correction, and the write of it is PATTERSON. -/
theorem pattersonCorrectsAtLocatorRoots : Obligations.PattersonCorrectsAtLocatorRoots := by
  intro s a b c d hs hN hr hg
  refine ⟨fun R h => ?_, fun k h => exec_patterson_error hs hN hr hg h⟩
  have hR := corrected_of_ok hs hg h
  have hlen : (rootBits s.field R.σ s.support).length = s.cfgN.toNat := by rw [rootBits_length, support_length]
  have hpd : (s.p.set d R.σ)[d] = R.σ := by simp
  refine ⟨_, exec_patterson_ok hs hN hr hg h, ?_⟩
  simp only [OnlyCompletes, State.finish, getElem_set_self_m, hpd, hR.toNat_count, true_and]
  refine ⟨rfl, rfl, hR.count_deg, hR.deg_le, fun j hj => ?_, ?_⟩
  · have hbit : (vectorOf s R.c).bit 0 j = R.c.testBit j := rfl
    rw [hbit, hR.c_eq, Nat.testBit_xor, testBit_packBits, rootBits_getD s R.σ hj]
    rfl
  · rw [hR.count_eq, ← countP_range_getD, hlen]
    refine List.countP_congr fun j hj => ?_
    rw [rootBits_getD s R.σ (List.mem_range.1 hj), beq_iff_eq, decide_eq_true_eq]

end Sys2Proof.Machine
end

section
/-! PROOFS. Message recovery (44_goppa.md R225): what the reduced form of `[Gᵗ | cᵗ]` says of the sums of rows of `G`, and DECODE. -/

namespace Sys2Proof.Machine

/-! ## The matrix `[Gᵗ | cᵗ]` -/

section SolveMat

variable (G : Mat) (c : Nat)

theorem solveMat_rows : (solveMat G c).rows = G.cols := by simp [solveMat]

theorem bit_solveMat {j : Nat} (hj : j < G.cols) (i : Nat) :
    (solveMat G c).bit j i = if i < G.rows then G.bit i j else (matTrans { cols := G.cols, row := [c] }).bit j (i - G.rows) := by
  rw [solveMat, bit_matHcat _ _ (matTrans_lt G) (by rwa [matTrans_rows]) (by rwa [matTrans_rows]), matTrans_cols]
  split
  · exact bit_matTrans G hj i
  · rfl

/-- Column `i` of `[Gᵗ | cᵗ]` is row `i` of `G`, … -/
theorem bitZ_solveMat_left {i j : Nat} (hj : j < G.cols) (hi : i < G.rows) :
    bitZ ((solveMat G c).rowAt j) i = bitZ (G.row.getD i 0) j := by
  have h := bit_solveMat G c hj i
  rw [if_pos hi] at h
  exact congrArg bitOf h

/-- … and the last one is `c`. -/
theorem bitZ_solveMat_last {j : Nat} (hj : j < G.cols) : bitZ ((solveMat G c).rowAt j) G.rows = bitZ c j := by
  have h := bit_solveMat G c hj G.rows
  rw [if_neg (lt_irrefl _), bit_matTrans { cols := G.cols, row := [c] } hj] at h
  refine (congrArg bitOf h).trans ?_
  simp [Mat.bit, Mat.rowAt, bitZ]

/-- The rows of `[Gᵗ | cᵗ]` compute the sums of rows of `G`. -/
theorem dot_solveMat {j : Nat} (hj : j < G.cols) (u : Nat) : dot G.rows ((solveMat G c).rowAt j) u = bitZ (selectRows u G.row) j := by
  rw [bitZ_selectRows, dot]
  refine Finset.sum_congr rfl fun i hi => ?_
  rw [bitZ_solveMat_left G c hj (Finset.mem_range.1 hi), mul_comm]

variable {G} (hG : ∀ r ∈ G.row, r < 2 ^ G.cols)
include hG

/-- Which selections sum to 0, by the reduced form. -/
theorem selectRows_eq_zero_iff (u : Nat) :
    selectRows u G.row = 0 ↔ ∀ i, i < (rref (solveMat G c) G.rows).piv.length →
      dot G.rows ((rref (solveMat G c) G.rows).row.getD i 0) u = 0 := by
  rw [← (rref_reduced (solveMat G c) G.rows).orthogonal_iff, orthogonal_iff_of_span (inSpan_rref (solveMat G c) G.rows)]
  constructor
  · refine fun h => Mat.forall_mem_row fun j hj => ?_
    rw [dot_solveMat G c (by rwa [solveMat_rows] at hj), h, bitZ_zero]
  · intro h
    refine eq_of_bitZ (selectRows_lt hG u) (Nat.two_pow_pos _) fun j hj => ?_
    rw [bitZ_zero, ← dot_solveMat G c hj]
    exact h _ (getD_mem_of_lt (by rwa [← Mat.rows, solveMat_rows]))

/-- Selections with one inner product at every pivot row have one sum. -/
theorem selectRows_eq_iff (u w : Nat) :
    selectRows u G.row = selectRows w G.row ↔ ∀ i, i < (rref (solveMat G c) G.rows).piv.length →
      dot G.rows ((rref (solveMat G c) G.rows).row.getD i 0) u = dot G.rows ((rref (solveMat G c) G.rows).row.getD i 0) w := by
  have hsub : selectRows u G.row = selectRows w G.row ↔ selectRows (u ^^^ w) G.row = 0 := by
    rw [selectRows_xor, Nat.xor_eq_zero_iff]
  rw [hsub, selectRows_eq_zero_iff c hG]
  refine forall_congr' fun i => imp_congr_right fun _ => ?_
  rw [dot_comm, dot_xor_left, CharTwo.add_eq_zero, dot_comm _ u, dot_comm _ w]

end SolveMat

/-! ## The number of sums -/

/-- The selection with the bits of `w` at the pivots. -/
def atPivots (piv : List Nat) (w : Nat) : Nat := selectRows w (piv.map (2 ^ ·))

theorem bitZ_atPivots (piv : List Nat) (w j : Nat) :
    bitZ (atPivots piv w) j = ∑ k ∈ Finset.range piv.length, if piv.getD k 0 = j then bitZ w k else 0 := by
  rw [atPivots, bitZ_selectRows, List.length_map]
  refine Finset.sum_congr rfl fun k hk => ?_
  have hget : (piv.map (2 ^ ·)).getD k 0 = 2 ^ piv.getD k 0 := by simp [Finset.mem_range.1 hk]
  rw [hget, bitZ_two_pow, mul_ite, mul_one, mul_zero]

section Reduced

variable {R : Rref} {n : Nat} (h : Reduced R.row R.piv n)
include h

/-- A pivot row reads the bit at its pivot. -/
theorem Reduced.dot_atPivots {i : Nat} (hi : i < R.piv.length) (w : Nat) :
    dot n (R.row.getD i 0) (atPivots R.piv w) = bitZ w i := by
  have hpivot : bitZ (atPivots R.piv w) (R.piv.getD i 0) = bitZ w i := by
    rw [bitZ_atPivots, Finset.sum_eq_single i]
    · rw [if_pos rfl]
    · intro k hk hne
      exact if_neg fun heq => hne ((getD_inj_of_nodup h.nodup (Finset.mem_range.1 hk) hi).1 heq)
    · intro hn
      exact absurd (Finset.mem_range.2 hi) hn
  have hfree (k : Nat) (hk : k < (freeCols n R.piv).length) : bitZ (atPivots R.piv w) ((freeCols n R.piv).getD k 0) = 0 := by
    rw [bitZ_atPivots]
    refine Finset.sum_eq_zero fun l hl => if_neg fun heq => ?_
    have hmem := getD_mem_of_lt (Finset.mem_range.1 hl)
    exact (mem_freeCols.1 (getD_mem_of_lt hk)).2 (heq ▸ hmem)
  rw [h.dot_row hi, hpivot, Finset.sum_eq_zero, add_zero]
  exact fun k hk => by rw [hfree k (Finset.mem_range.1 hk), mul_zero]

/-- The inner products of a selection with the pivot rows. -/
def pivotDots (R : Rref) (n u : Nat) : Nat :=
  packBits ((List.range R.piv.length).map fun i => decide (dot n (R.row.getD i 0) u = 1))

omit h in
theorem pivotDots_lt (R : Rref) (n u : Nat) : pivotDots R n u < 2 ^ R.piv.length := (packBits_lt _).trans_eq (by simp)

omit h in
theorem bitZ_pivotDots (u : Nat) {i : Nat} (hi : i < R.piv.length) : bitZ (pivotDots R n u) i = dot n (R.row.getD i 0) u := by
  have hbit (z : ZMod 2) : bitOf (decide (z = 1)) = z := by
    revert z
    decide
  rw [bitZ, pivotDots, testBit_packBits]
  simp only [List.getD_eq_getElem?_getD, List.getElem?_map, List.getElem?_range hi, Option.map_some, Option.getD_some, hbit]

end Reduced

/-- The rows of `G` have `2^rank` different sums, one for each selection at the pivots. -/
theorem ncard_range_selectRows {G : Mat} (c : Nat) (hG : ∀ r ∈ G.row, r < 2 ^ G.cols) :
    (Set.range fun u => selectRows u G.row).ncard = 2 ^ (rref (solveMat G c) G.rows).piv.length := by
  have h := rref_reduced (solveMat G c) G.rows
  set R := rref (solveMat G c) G.rows
  have himage : (Set.range fun u => selectRows u G.row) =
      (fun w => selectRows (atPivots R.piv w) G.row) '' Set.Iio (2 ^ R.piv.length) := by
    ext v
    constructor
    · rintro ⟨u, rfl⟩
      refine ⟨pivotDots R G.rows u, pivotDots_lt R G.rows u, ?_⟩
      exact (selectRows_eq_iff c hG _ _).2 fun i hi => by rw [h.dot_atPivots hi, bitZ_pivotDots u hi]
    · rintro ⟨w, -, rfl⟩
      exact ⟨_, rfl⟩
  have hinj : Set.InjOn (fun w => selectRows (atPivots R.piv w) G.row) (Set.Iio (2 ^ R.piv.length)) := by
    intro w hw w' hw' heq
    refine eq_of_bitZ hw hw' fun i hi => ?_
    rw [← h.dot_atPivots hi, ← h.dot_atPivots hi, (selectRows_eq_iff c hG _ _).1 heq i hi]
  rw [himage, hinj.ncard_image, Set.ncard_Iio_nat]

/-! ## The message -/

section Message

variable {G : Mat} (hG : ∀ r ∈ G.row, r < 2 ^ G.cols) (hind : ∀ u, u < 2 ^ G.rows → selectRows u G.row = 0 → u = 0)
include hG hind

/-- Independent rows have full rank. -/
theorem rank_of_independent (c : Nat) : (rref (solveMat G c) G.rows).rank = G.rows := by
  have h := rref_reduced (solveMat G c) G.rows
  rw [rref_rank_eq]
  by_contra hne
  have hsplit := h.rank_add_freeCols
  have hpos : 0 < (freeCols G.rows (rref (solveMat G c) G.rows).piv).length := by omega
  have hbit := bitZ_sum_free (2 ^ 0) hpos
  have hzero := hind _ (selectRows_lt h.nullRows_lt (2 ^ 0))
    ((selectRows_eq_zero_iff c hG _).2 ((h.orthogonal_iff _).1 (h.orthogonal_sum _)))
  rw [hzero, bitZ_zero, bitZ_two_pow, if_pos rfl] at hbit
  exact zero_ne_one hbit

/-- The last column of the reduced form is the selection that gives `c`. -/
theorem bitZ_rref_last {u : Nat} (hu : u < 2 ^ G.rows) {i : Nat} (hi : i < G.rows) :
    bitZ ((rref (solveMat G (selectRows u G.row)) G.rows).row.getD i 0) G.rows = bitZ u i := by
  set c := selectRows u G.row with hc
  have hfull := rank_of_independent hG hind c
  have hlow {l : Nat} (hl : l < G.rows) : bitZ (u ^^^ 2 ^ G.rows) l = bitZ u l := by
    rw [bitZ_xor, bitZ_two_pow, if_neg (by omega), add_zero]
  have htop : bitZ (u ^^^ 2 ^ G.rows) G.rows = 1 := by
    rw [bitZ_xor, bitZ_two_pow, if_pos rfl, bitZ_eq_zero_of_lt hu le_rfl, zero_add]
  have hdot (x : Nat) : dot (G.rows + 1) x (u ^^^ 2 ^ G.rows) = dot G.rows x u + bitZ x G.rows := by
    rw [dot, Finset.sum_range_succ, htop, mul_one, dot]
    congr 1
    exact Finset.sum_congr rfl fun l hl => by rw [hlow (Finset.mem_range.1 hl)]
  have horth : ∀ x ∈ (solveMat G c).row, dot (G.rows + 1) x (u ^^^ 2 ^ G.rows) = 0 := by
    refine Mat.forall_mem_row fun j hj => ?_
    rw [solveMat_rows] at hj
    rw [hdot, dot_solveMat G c hj, bitZ_solveMat_last G c hj, ← hc]
    exact CharTwo.add_self_eq_zero _
  have hrow := dot_eq_zero_of_inSpan horth ((inSpan_rref (solveMat G c) G.rows _).1 (InSpan.row _ i))
  have hunit : dot G.rows ((rref (solveMat G c) G.rows).row.getD i 0) u = bitZ u i := by
    rw [dot, Finset.sum_eq_single i]
    · rw [bitZ_rref_of_full hfull hi hi, if_pos rfl, one_mul]
    · intro l hl hne
      rw [bitZ_rref_of_full hfull hi (Finset.mem_range.1 hl), if_neg (Ne.symm hne), zero_mul]
    · intro hn
      exact absurd (Finset.mem_range.2 hi) hn
  rw [hdot, hunit, CharTwo.add_eq_zero] at hrow
  exact hrow.symm

/-- The message that `solve` answers is the selection (44_goppa.md R225). -/
theorem solve_message {u : Nat} (hu : u < 2 ^ G.rows) : (solve G (selectRows u G.row)).1.row = [u] := by
  have hlt : packBits ((List.range G.rows).map fun j =>
      ((rref (solveMat G (selectRows u G.row)) G.rows).row.getD j 0).testBit G.rows) < 2 ^ G.rows :=
    (packBits_lt _).trans_eq (by simp)
  refine congrArg ([·]) (eq_of_bitZ hlt hu fun i hi => ?_)
  rw [← bitZ_rref_last hG hind hu hi, bitZ, bitZ, testBit_packBits]
  simp only [List.getD_eq_getElem?_getD, List.getElem?_map, List.getElem?_range hi, Option.map_some, Option.getD_some]

end Message

/-- Settles O59: the sums are counted by the selections at the pivots, and independent rows give the message in the last column. -/
theorem decodeRecoversTheMessage : Obligations.DecodeRecoversTheMessage := by
  intro s a b c d e hs hN hr hg hae hcols hrows
  refine ⟨fun R h => ?_, fun k h => exec_decode_error hs hN hae hr hg hcols hrows h⟩
  obtain ⟨-, hr32, -, hlt⟩ := inv_matOk hs.1 d
  have hR := corrected_of_ok hs hg h
  have hrank : (solve s.m[d] R.c).2 = (rref (solveMat s.m[d] R.c) s.m[d].rows).piv.length := rref_rank_eq _ _
  have hrank32 : (solve s.m[d] R.c).2 < 2 ^ 32 := by
    have := (rref_reduced (solveMat s.m[d] R.c) s.m[d].rows).rank_add_freeCols
    omega
  obtain ⟨hma, hme⟩ := getElem_set_set_m s hae (solve s.m[d] R.c).1 (vectorOf s R.c)
  refine ⟨_, exec_decode_ok hs hN hae hr hg hcols hrows h, ?_⟩
  simp only [OnlyCompletes, State.finish, hma, hme, hR.toNat_count, true_and]
  refine ⟨rfl, rfl, solve_cols _ _, ?_, fun hind u hu hsum => ?_⟩
  · rw [BitVec.toNat_ofNat, Nat.mod_eq_of_lt hrank32, hrank]
    exact ncard_range_selectRows R.c hlt
  · rw [← hsum]
    exact solve_message hlt hind hu

end Sys2Proof.Machine
end

section
/-! PROOFS. The algebra of Patterson's theorem over a field of characteristic 2 (44_goppa.md R220, R224): the key equation, and that the
short pair of the lattice is a multiple of the pair of the true error locator. -/

namespace Sys2Proof.Machine

open scoped Polynomial

section Algebra

variable {K : Type} [Field K]

/-! ## The key equation -/

/-- With an inverse `e j` of each factor `f j` of derivative 1, the sum of the inverses times the product is the derivative of the
product, modulo `p`. -/
theorem dvd_sum_mul_prod_sub_derivative {p : K[X]} (s : Finset Nat) {e f : Nat → K[X]} (he : ∀ j ∈ s, p ∣ e j * f j - 1)
    (hf : ∀ j ∈ s, Polynomial.derivative (f j) = 1) :
    p ∣ (∑ j ∈ s, e j) * (∏ j ∈ s, f j) - Polynomial.derivative (∏ j ∈ s, f j) := by
  have hterm : (∑ j ∈ s, e j) * (∏ j ∈ s, f j) - Polynomial.derivative (∏ j ∈ s, f j) =
      ∑ j ∈ s, (e j * f j - 1) * ∏ i ∈ s.erase j, f i := by
    rw [Polynomial.derivative_prod_finset, Finset.sum_mul, ← Finset.sum_sub_distrib]
    refine Finset.sum_congr rfl fun j hj => ?_
    rw [hf j hj, ← Finset.mul_prod_erase s f hj]
    ring
  rw [hterm]
  exact Finset.dvd_sum fun j hj => (he j hj).mul_right _

/-- The key equation has no solution with syndrome 0. -/
theorem not_dvd_syndrome {p S σ : K[X]} (hsep : σ.Separable) (h1 : 1 ≤ σ.natDegree) (hle : σ.natDegree ≤ p.natDegree)
    (hkey : p ∣ S * σ - Polynomial.derivative σ) : ¬ p ∣ S := by
  intro hS
  have hdvd : p ∣ Polynomial.derivative σ := (dvd_sub_right (hS.mul_right σ)).1 hkey
  have hzero : Polynomial.derivative σ = 0 :=
    Polynomial.eq_zero_of_dvd_of_natDegree_lt hdvd ((Polynomial.natDegree_derivative_lt (by omega)).trans_le hle)
  have hunit : IsUnit σ := by rwa [Polynomial.Separable, hzero, isCoprime_zero_right] at hsep
  have := Polynomial.natDegree_eq_zero_of_isUnit hunit
  omega

variable [CharP K 2]

/-! ## Even and odd parts -/

variable {A B σ : K[X]} (hσ : A ^ 2 + Polynomial.X * B ^ 2 = σ)
include hσ

theorem derivative_of_split : Polynomial.derivative σ = B ^ 2 := by
  have htwo : (2 : K[X]) = 0 := CharTwo.two_eq_zero
  rw [← hσ, Polynomial.derivative_add, Polynomial.derivative_mul, Polynomial.derivative_X, Polynomial.derivative_pow_succ,
    Polynomial.derivative_pow_succ]
  simp only [Nat.cast_one, one_add_one_eq_two, CharTwo.two_eq_zero, Polynomial.C_0]
  ring

theorem coeff_split_even (i : Nat) : σ.coeff (2 * i) = A.coeff i ^ 2 := by
  have hX : (Polynomial.X * B ^ 2).coeff (2 * i) = 0 := by
    cases i with
    | zero => simp
    | succ i => rw [show 2 * (i + 1) = 2 * i + 1 + 1 by ring, Polynomial.coeff_X_mul, coeff_sq_of_charTwo, if_neg (by omega)]
  rw [← hσ, Polynomial.coeff_add, hX, coeff_sq_of_charTwo, if_pos (dvd_mul_right 2 i), Nat.mul_div_cancel_left i two_pos, add_zero]

theorem coeff_split_odd (i : Nat) : σ.coeff (2 * i + 1) = B.coeff i ^ 2 := by
  rw [← hσ, Polynomial.coeff_add, Polynomial.coeff_X_mul, coeff_sq_of_charTwo, coeff_sq_of_charTwo, if_neg (by omega),
    if_pos (dvd_mul_right 2 i), Nat.mul_div_cancel_left i two_pos, zero_add]

theorem natDegree_split_even : 2 * A.natDegree ≤ σ.natDegree := by
  by_cases hA : A = 0
  · simp [hA]
  · refine Polynomial.le_natDegree_of_ne_zero ?_
    rw [coeff_split_even hσ]
    exact pow_ne_zero 2 (Polynomial.leadingCoeff_ne_zero.2 hA)

theorem natDegree_split_odd (h1 : 1 ≤ σ.natDegree) : 2 * B.natDegree + 1 ≤ σ.natDegree := by
  by_cases hB : B = 0
  · simpa [hB] using h1
  · refine Polynomial.le_natDegree_of_ne_zero ?_
    rw [coeff_split_odd hσ]
    exact pow_ne_zero 2 (Polynomial.leadingCoeff_ne_zero.2 hB)

omit [CharP K 2] in
theorem isCoprime_split (hsq : Squarefree σ) : IsCoprime A B := by
  have hrel : IsRelPrime A B := fun d hA hB => hsq d (by
    rw [← hσ, ← pow_two]
    exact (pow_dvd_pow_of_dvd hA 2).add ((pow_dvd_pow_of_dvd hB 2).mul_left _))
  exact hrel.isCoprime

/-! ## The pair of the true locator and the pair of the lattice -/

variable {p S U τ : K[X]} (hp : Irreducible p)
include hp

/-- The pair of the true locator is congruent to `τ`. -/
theorem dvd_sub_mul_tau (hkey : p ∣ S * σ - Polynomial.derivative σ) (hU : p ∣ U * S - 1)
    (hτ : p ∣ τ ^ 2 - (U + Polynomial.X)) : p ∣ A - B * τ := by
  rw [derivative_of_split hσ] at hkey
  have htwo : (2 : K[X]) = 0 := CharTwo.two_eq_zero
  have hsq : p ∣ (A - B * τ) ^ 2 := by
    obtain ⟨x, hx⟩ := hkey
    obtain ⟨y, hy⟩ := hU
    obtain ⟨z, hz⟩ := hτ
    refine ⟨-U * x + σ * y + B ^ 2 * z, ?_⟩
    linear_combination -U * hx + σ * hy + B ^ 2 * hz + hσ + (σ - A * B * τ) * htwo
  exact hp.prime.dvd_of_dvd_pow hsq

variable {α β : K[X]}

omit hp in
/-- Two short pairs congruent to `τ` are proportional. -/
theorem cross_eq (hpair : p ∣ A - B * τ) (h1 : 1 ≤ σ.natDegree) (hle : σ.natDegree ≤ p.natDegree) (hcong : p ∣ α - β * τ)
    (hα : 2 * α.natDegree ≤ p.natDegree) (hβ : 2 * β.natDegree + 1 ≤ p.natDegree) : A * β = B * α := by
  have hA := natDegree_split_even hσ
  have hB := natDegree_split_odd hσ h1
  have hdvd : p ∣ A * β - B * α := by
    rw [show A * β - B * α = (A - B * τ) * β - B * (α - β * τ) by ring]
    exact (hpair.mul_right β).sub (hcong.mul_left B)
  refine sub_eq_zero.1 (Polynomial.eq_zero_of_dvd_of_natDegree_lt hdvd ?_)
  have hAβ : (A * β).natDegree ≤ A.natDegree + β.natDegree := Polynomial.natDegree_mul_le
  have hBα : (B * α).natDegree ≤ B.natDegree + α.natDegree := Polynomial.natDegree_mul_le
  exact (Polynomial.natDegree_sub_le _ _).trans_lt (max_lt (by omega) (by omega))

omit [CharP K 2] hσ hp in
/-- Proportional to a coprime pair: a multiple of it. -/
theorem exists_scale (hcop : IsCoprime A B) (h : A * β = B * α) : ∃ l, α = l * A ∧ β = l * B := by
  obtain ⟨u, v, huv⟩ := hcop
  exact ⟨u * α + v * β, by linear_combination -α * huv - v * h, by linear_combination -β * huv + u * h⟩

/-- The lattice pair gives the true locator up to a nonzero constant. -/
theorem locator_scale (hsq : Squarefree σ) (hpair : p ∣ A - B * τ) (h1 : 1 ≤ σ.natDegree) (hle : σ.natDegree ≤ p.natDegree)
    (hcong : p ∣ α - β * τ) (hα : 2 * α.natDegree ≤ p.natDegree) (hβ : 2 * β.natDegree + 1 ≤ p.natDegree) (hβ0 : β ≠ 0)
    (hcommon : ∀ d, d ∣ α → d ∣ β → d ∣ p) :
    ∃ k : K, k ≠ 0 ∧ α ^ 2 + Polynomial.X * β ^ 2 = Polynomial.C k * σ := by
  obtain ⟨l, rfl, rfl⟩ := exists_scale (isCoprime_split hσ hsq) (cross_eq hσ hpair h1 hle hcong hα hβ)
  have hunit : IsUnit l := by
    obtain ⟨q, hq⟩ := hcommon l (dvd_mul_right l A) (dvd_mul_right l B)
    refine (hp.isUnit_or_isUnit hq).resolve_right fun hqu => ?_
    have hpl : p ∣ l := by
      obtain ⟨q', hq'⟩ := hqu
      exact ⟨↑q'⁻¹, by rw [hq, ← hq', mul_assoc, Units.mul_inv, mul_one]⟩
    have := Polynomial.natDegree_le_of_dvd (hpl.mul_right B) hβ0
    omega
  obtain ⟨c, hc, rfl⟩ := Polynomial.isUnit_iff.1 hunit
  refine ⟨c ^ 2, pow_ne_zero 2 hc.ne_zero, ?_⟩
  rw [← hσ, Polynomial.C_pow]
  ring

end Algebra

end Sys2Proof.Machine
end

section
/-! PROOFS. Patterson's theorem for the model (44_goppa.md R224): up to `t` errors on a codeword are corrected. -/

namespace Sys2Proof.Machine

open scoped Polynomial

/-! ## The flipped positions -/

/-- The positions with a 1, as a set. -/
def onesOf (n x : Nat) : Finset Nat := {j ∈ Finset.range n | x.testBit j = true}

theorem mem_onesOf {n x j : Nat} : j ∈ onesOf n x ↔ j < n ∧ x.testBit j = true := by
  rw [onesOf, Finset.mem_filter, Finset.mem_range]

theorem onesOf_val (n x : Nat) : (onesOf n x).val = ((List.range n).filter fun j => x.testBit j : List Nat) := by
  simp only [onesOf, Finset.filter_val, Finset.range_val, Multiset.range, Multiset.filter_coe, Bool.decide_eq_true]

theorem card_onesOf (n x : Nat) : (onesOf n x).card = ((List.range n).filter fun j => x.testBit j).length := by
  rw [Finset.card, onesOf_val, Multiset.coe_card]

namespace FieldModel

variable {F : Gf} {K : Type} [Field K] (M : FieldModel F K)

/-- The error locator: the product of `x + α_j` over the flipped positions. -/
noncomputable def trueLocator (sup : List Nat) (x : Nat) : K[X] :=
  ∏ j ∈ onesOf sup.length x, (Polynomial.X + Polynomial.C (M.val (sup.getD j 0)))

theorem syndPoly_eq_sum (G : Poly) (x : Nat) (sup : List Nat) :
    M.syndPoly G x sup = ∑ j ∈ onesOf sup.length x, M.entry G (sup.getD j 0) := by
  rw [syndPoly, onesOf, Finset.sum_filter]

include M

theorem X_add_C_eq (a : K) : Polynomial.X + Polynomial.C a = Polynomial.X - Polynomial.C a := by
  have := M.charTwo
  exact (CharTwo.sub_eq_add _ _).symm

theorem trueLocator_eq (sup : List Nat) (x : Nat) :
    M.trueLocator sup x = ∏ j ∈ onesOf sup.length x, (Polynomial.X - Polynomial.C (M.val (sup.getD j 0))) :=
  Finset.prod_congr rfl fun _ _ => M.X_add_C_eq _

theorem natDegree_trueLocator (sup : List Nat) (x : Nat) : (M.trueLocator sup x).natDegree = (onesOf sup.length x).card := by
  rw [trueLocator_eq, Polynomial.natDegree_finsetProd_X_sub_C_eq_card]

/-- Distinct support entries are distinct field elements. -/
theorem val_getD_inj {sup : List Nat} (hsup : ∀ α ∈ sup, α < 2 ^ F.m) (hnd : sup.Nodup) {i j : Nat} (hi : i < sup.length)
    (hj : j < sup.length) (h : M.val (sup.getD i 0) = M.val (sup.getD j 0)) : i = j :=
  (getD_inj_of_nodup hnd hi hj).1 (M.val_inj (hsup _ (getD_mem_of_lt hi)) (hsup _ (getD_mem_of_lt hj)) h)

theorem separable_trueLocator {sup : List Nat} (hsup : ∀ α ∈ sup, α < 2 ^ F.m) (hnd : sup.Nodup) (x : Nat) :
    (M.trueLocator sup x).Separable := by
  rw [trueLocator_eq, Polynomial.separable_prod_X_sub_C_iff']
  exact fun i hi j hj h => M.val_getD_inj hsup hnd (mem_onesOf.1 hi).1 (mem_onesOf.1 hj).1 h

/-- The locator vanishes at the support entries of the flipped positions and at no other one. -/
theorem eval_trueLocator_eq_zero_iff {sup : List Nat} (hsup : ∀ α ∈ sup, α < 2 ^ F.m) (hnd : sup.Nodup) (x : Nat) {j : Nat}
    (hj : j < sup.length) : (M.trueLocator sup x).eval (M.val (sup.getD j 0)) = 0 ↔ x.testBit j = true := by
  rw [trueLocator_eq, Polynomial.eval_prod, Finset.prod_eq_zero_iff]
  constructor
  · rintro ⟨i, hi, h⟩
    rw [Polynomial.eval_sub, Polynomial.eval_X, Polynomial.eval_C, sub_eq_zero] at h
    obtain ⟨hi, hbit⟩ := mem_onesOf.1 hi
    rwa [M.val_getD_inj hsup hnd hj hi h]
  · intro h
    exact ⟨j, mem_onesOf.2 ⟨hj, h⟩, by rw [Polynomial.eval_sub, Polynomial.eval_X, Polynomial.eval_C, sub_self]⟩

/-- The key equation for the flipped positions. -/
theorem key_equation {G : Poly} (hG : InField F G) {sup : List Nat} (hsup : ∀ α ∈ sup, α < 2 ^ F.m)
    (hroot : ∀ α ∈ sup, peval F G α ≠ 0) (x : Nat) :
    M.poly G ∣ M.syndPoly G x sup * M.trueLocator sup x - Polynomial.derivative (M.trueLocator sup x) := by
  rw [syndPoly_eq_sum]
  refine dvd_sum_mul_prod_sub_derivative _ (fun j hj => M.dvd_entry_mul ?_) fun j _ => by simp
  have hmem := getD_mem_of_lt (mem_onesOf.1 hj).1
  rw [← M.val_peval G (hsup _ hmem), Ne, M.val_eq_zero_iff (M.peval_lt hG _)]
  exact hroot _ hmem

/-- Every polynomial is split into an even and an odd part, both squares. -/
theorem exists_split (σ : K[X]) : ∃ A B : K[X], A ^ 2 + Polynomial.X * B ^ 2 = σ := by
  obtain ⟨P, hP, -, rfl⟩ := M.poly_surjective σ
  exact ⟨_, _, M.poly_psplit hP⟩

/-- Step 3 of R220 for a syndrome other than 0 and an irreducible `g`. -/
theorem patTau_spec {S G : Poly} (hS : InField F S) (hG : InField F G) (hG1 : 1 ≤ deg G) (hirr : Irreducible (M.poly G))
    (hne : ¬ M.poly G ∣ M.poly S) :
    ∃ τ, patTau F S G = .ok τ ∧ InField F τ ∧
      ∃ U, M.poly G ∣ U * M.poly S - 1 ∧ M.poly G ∣ M.poly τ ^ 2 - (U + Polynomial.X) := by
  have hcop : IsCoprime (M.poly S) (M.poly G) := (hirr.coprime_iff_not_dvd.2 hne).symm
  obtain ⟨U, hok, hU, -, -, hinv⟩ | ⟨-, hno⟩ := M.pinvmod_spec hS hG hG1
  · have hsum := inField_padd hU M.inField_polyX
    obtain ⟨τ, hτ, hτF, -, -, hsq⟩ := M.psqrtmod_spec (M.inField_pmod hsum hG (by omega)) hG hG1
    refine ⟨τ, ?_, hτF, M.poly U, hinv, ?_⟩
    · rw [patTau_eq, hok, except_ok_bind, hτ]
    · have h := (hsq hirr).add (M.dvd_pmod_sub hsum hG (by omega))
      rwa [sub_add_sub_cancel, poly_padd, poly_polyX] at h
  · exact absurd hcop hno

end FieldModel

/-! ## The correction -/

theorem packBits_testBits {n x : Nat} (hx : x < 2 ^ n) : packBits ((List.range n).map fun j => x.testBit j) = x := by
  refine eq_of_bitZ ((packBits_lt _).trans_eq (by simp)) hx fun j hj => ?_
  rw [bitZ_eq_iff, testBit_packBits]
  simp only [List.getD_eq_getElem?_getD, List.getElem?_map, List.getElem?_range hj, Option.map_some, Option.getD_some]

theorem countTrue_testBits (n x : Nat) :
    countTrue ((List.range n).map fun j => x.testBit j) = ((List.range n).filter fun j => x.testBit j).length := by
  rw [countTrue, List.countP_map, List.countP_eq_length_filter]
  congr 2
  funext j
  simp

namespace FieldModel

variable {F : Gf} {K : Type} [Field K] (M : FieldModel F K)
include M

/-- A multiple of the locator has its roots at the flipped positions. -/
theorem rootBits_of_scale {sup : List Nat} (hsup : ∀ α ∈ sup, α < 2 ^ F.m) (hnd : sup.Nodup) (x : Nat) {σ : Poly} (hσ : InField F σ)
    {k : K} (hk : k ≠ 0) (h : M.poly σ = Polynomial.C k * M.trueLocator sup x) :
    rootBits F σ sup = (List.range sup.length).map fun j => x.testBit j := by
  refine List.ext_getElem (by simp) fun j h1 h2 => ?_
  have hj : j < sup.length := by simpa using h1
  have hget : sup[j] = sup.getD j 0 := by rw [List.getD_eq_getElem?_getD, List.getElem?_eq_getElem hj, Option.getD_some]
  have hzero : peval F σ (sup.getD j 0) = 0 ↔ x.testBit j = true := by
    rw [← M.val_eq_zero_iff (M.peval_lt hσ _), M.val_peval σ (hsup _ (getD_mem_of_lt hj)), h, Polynomial.eval_mul,
      Polynomial.eval_C, mul_eq_zero, M.eval_trueLocator_eq_zero_iff hsup hnd x hj]
    exact or_iff_right hk
  simp only [rootBits, List.getElem_map, List.getElem_range, hget]
  rw [Bool.eq_iff_iff, beq_iff_eq, hzero]

/-- Patterson's theorem: the locator found is a multiple of the true one, and the codeword is recovered. -/
theorem patterson_corrects {G : Poly} (hG : InField F G) (hG1 : 1 ≤ deg G) (hirr : Irreducible (M.poly G)) {sup : List Nat}
    (hsup : ∀ α ∈ sup, α < 2 ^ F.m) (hroot : ∀ α ∈ sup, peval F G α ≠ 0) (hnd : sup.Nodup) {v x : Nat} (hx : x < 2 ^ sup.length)
    (hv : synd F G v sup = .ok []) (h1 : 1 ≤ (onesOf sup.length x).card) (hle : ((onesOf sup.length x).card : Int) ≤ deg G)
    (zs : Bool) :
    ∃ (σ : Poly) (k : K), patterson F G (v ^^^ x) sup zs = .ok { c := v, σ := σ, count := (onesOf sup.length x).card } ∧
      InField F σ ∧ Memory.wf σ ∧ k ≠ 0 ∧ M.poly σ = Polynomial.C k * M.trueLocator sup x := by
  have hnatG := M.natDegree_poly hG
  have hloc := M.natDegree_trueLocator sup x
  have hsep := M.separable_trueLocator hsup hnd x
  have hkey := M.key_equation hG hsup hroot x
  obtain ⟨Sv, hSvok, -, -, -, hSv⟩ := M.synd_spec hG hG1 v hsup hroot
  obtain rfl : Sv = [] := Except.ok.inj (hSvok.symm.trans hv)
  obtain ⟨S, hSok, hS, -, -, hSp⟩ := M.synd_spec hG hG1 (v ^^^ x) hsup hroot
  rw [syndPoly_xor, ← hSv, poly_nil, zero_add] at hSp
  rw [← hSp] at hkey
  have hndvd : ¬ M.poly G ∣ M.poly S := not_dvd_syndrome hsep (by omega) (by omega) hkey
  have hSz : ¬ isZero S = true := fun hz => hndvd (by rw [(M.isZero_iff_poly hS).1 hz]; exact dvd_zero _)
  obtain ⟨τ, hτok, hτ, U, hU, hsq⟩ := M.patTau_spec hS hG hG1 hirr hndvd
  have hshort := M.latred_spec hτ hG hG1
  obtain ⟨A, B, hAB⟩ := M.exists_split (M.trueLocator sup x)
  have hchar := M.charTwo
  have hβ0 : M.poly (latred F τ G).2 ≠ 0 := (M.poly_eq_zero_iff hshort.fb).not.2 (by
    have := hshort.b_ne
    omega)
  obtain ⟨k, hk, hscale⟩ := locator_scale hAB hirr hsep.squarefree (dvd_sub_mul_tau hAB hirr hkey hU hsq) (by omega) (by omega)
    hshort.cong
    (by
      have := hshort.deg_a
      have := M.natDegree_poly hshort.fa
      omega)
    (by
      have := hshort.deg_b
      have := M.natDegree_poly hshort.fb
      omega)
    hβ0 hshort.common
  rw [← M.poly_locator hshort] at hscale
  have hσ := M.inField_locator τ G
  have hroots := M.rootBits_of_scale hsup hnd x hσ hk hscale
  have hdeg : ((onesOf sup.length x).card : Int) = deg (locator F τ G) := by
    have hne : M.poly (locator F τ G) ≠ 0 := by
      rw [hscale]
      refine mul_ne_zero (Polynomial.C_ne_zero.2 hk) fun h0 => ?_
      rw [h0, Polynomial.natDegree_zero] at hloc
      omega
    rw [M.deg_eq_natDegree hσ hne, hscale, Polynomial.natDegree_C_mul hk, hloc]
  refine ⟨locator F τ G, k, ?_, hσ, locator_wf τ G, hk, hscale⟩
  rw [patterson_eq, hSok, except_ok_bind, if_neg hSz, hτok, except_ok_bind, hroots, countTrue_testBits, ← card_onesOf,
    if_pos hdeg, packBits_testBits hx, Nat.xor_assoc, Nat.xor_self, Nat.xor_zero]

omit M in
theorem foldl_linear_wf (l : List Nat) (q : Nat → Nat) {acc : Poly} (h : Memory.wf acc) :
    Memory.wf (l.foldl (fun acc j => pmul F acc (norm [q j, 1])) acc) := by
  induction l generalizing acc with
  | nil => exact h
  | cons j l ih => exact ih (pmul_wf F _ _)

/-- A product of linear factors, one after the other. -/
theorem poly_foldl_linear (l : List Nat) (q : Nat → Nat) (hq : ∀ j ∈ l, q j < 2 ^ F.m) {acc : Poly} (h : InField F acc) :
    InField F (l.foldl (fun acc j => pmul F acc (norm [q j, 1])) acc) ∧
      M.poly (l.foldl (fun acc j => pmul F acc (norm [q j, 1])) acc) =
        M.poly acc * (l.map fun j => Polynomial.X + Polynomial.C (M.val (q j))).prod := by
  induction l generalizing acc with
  | nil => exact ⟨h, by simp⟩
  | cons j l ih =>
    obtain ⟨h1, h2⟩ := ih (fun i hi => hq i (List.mem_cons_of_mem _ hi)) (M.inField_pmul acc (norm [q j, 1]))
    refine ⟨h1, h2.trans ?_⟩
    rw [M.poly_pmul acc (M.inField_linear (hq j List.mem_cons_self)), poly_linear, List.map_cons, List.prod_cons, mul_assoc]

omit M in
/-- The locator as a product over the list of flipped positions. -/
theorem trueLocator_eq_prod (M : FieldModel F K) (sup : List Nat) (x : Nat) :
    M.trueLocator sup x = (((List.range sup.length).filter fun j => x.testBit j).map fun j =>
      Polynomial.X + Polynomial.C (M.val (sup.getD j 0))).prod := by
  rw [trueLocator, Finset.prod, onesOf_val, Multiset.map_coe, Multiset.prod_coe]

end FieldModel

/-- Settles O58: `FieldModel.patterson_corrects`, with the locator written as the statement's product. -/
theorem pattersonCorrectsUpToDegreeErrors : Obligations.PattersonCorrectsUpToDegreeErrors := by
  intro s a b c d v x hs hN hg hirr hnd hv hx hsynd hb flipped h1 hle
  obtain ⟨K, _, ⟨M⟩⟩ := configured_fieldModel hs
  have hG := (polyInField_iff s s.p[c]).1 hg.1
  have hG1 : 1 ≤ deg s.p[c] := hg.2.2.1
  obtain ⟨hsup, hroot⟩ := goppaOk_support hg
  have hlen := support_length s
  have hcard : (onesOf s.support.length x).card = flipped.length := by rw [card_onesOf, hlen]
  rw [← hcard] at h1 hle
  obtain ⟨σ, k, hok, hσ, hw, hk, hpoly⟩ := M.patterson_corrects hG hG1 ((M.irreducibleOver_iff hG).1 hirr) hsup hroot hnd
    (by rwa [hlen]) hsynd h1 hle s.sampledZs
  have hr : s.Received s.m[b] := by
    rw [hb]
    exact ⟨rfl, rfl⟩
  have hrow : s.m[b].rowAt 0 = v ^^^ x := by
    rw [hb]
    rfl
  rw [← hrow] at hok
  obtain ⟨lam, hlam, hlamk⟩ := M.val_surj k
  have hlamF : InField s.field [lam] := inField_iff.2 fun y hy => by
    obtain rfl : y = lam := by simpa using hy
    exact hlam
  have hlam0 : lam ≠ 0 := fun h0 => hk (by rw [← hlamk, h0, M.val_zero])
  have hpd : (s.p.set d σ)[d] = σ := by simp
  have hcount := (corrected_of_ok hs hg hok).toNat_count
  refine ⟨_, exec_patterson_ok hs hN hr hg hok, ?_⟩
  simp only [OnlyCompletes, State.finish, getElem_set_self_m, hpd, hcount, true_and]
  refine ⟨rfl, hcard, lam, hlam0, hlam, ?_⟩
  have hmem {j : Nat} (hj : j ∈ flipped) : j < s.cfgN.toNat := List.mem_range.1 (List.mem_of_mem_filter hj)
  obtain ⟨hfold, hprod⟩ := M.poly_foldl_linear flipped (Memory.read s.sup) (fun j hj => hg.2.1 j (hmem hj)) hlamF
  refine M.poly_injective hσ hfold hw (FieldModel.foldl_linear_wf flipped _ ?_) ?_
  · rw [Memory.wf_cons_iff]
    exact ⟨by decide, fun _ => hlam0⟩
  · rw [hprod, hpoly, M.trueLocator_eq_prod, hlen, M.poly_cons, M.poly_nil, mul_zero, add_zero, hlamk]
    congr 2
    exact List.map_congr_left fun j hj => by rw [support_getD s (hmem hj)]

end Sys2Proof.Machine
end
